-- ==== Sys2Proof/Word.lean ====
section
/-! DEFINITION. The word types of the frame synchronizer and opcode dispatcher (FSD): 00_scope.md R8 and R9.
Every value of the spec is unsigned; nothing sign-extends (R8, 30_encoding.md R82). -/

namespace Sys2Proof

/-- One byte of a stream, a frame or the payload buffer (R9). -/
abbrev Byte := BitVec 8

/-- Half a byte: `b[7:4]` or `b[3:0]` (R8). -/
abbrev Nibble := BitVec 4

/-- The width of `LEN_R` and `CNT` (10_state.md R29, R30). -/
abbrev Len := BitVec 5

/-- One of the 16 indices of the X10 permutation. The value is "index − 1", the 4-bit port value of
43_x10_codec.md R178; the spec's index, in 1..16, is the value plus one. -/
abbrev X10Index := Fin 16

end Sys2Proof
end

