-- ==== Sys2Proof/Config.lean ====
section
/-! DEFINITION. What an FSD instance fixes (00_scope.md R6): the table-select mode, the record kinds, the shape of
the tables, the parameter set, and the values the spec leaves open (opaque constants: nothing can be proved of
their values). The contents of the tables stand in Machine/Tables.lean. -/

namespace Sys2Proof

/-- The dispatch table in use (10_state.md R24): `msg` is port value 0, `rsp` is port value 1 (D36). -/
inductive Mode where
  | msg
  | rsp
deriving DecidableEq, Repr, Inhabited

/-- The record kinds of `MSG_TABLE` (30_encoding.md R68), in opcode order. -/
inductive MsgKind where
  | receivedStd
  | receivedExt
  | x10Received
  | linkComplete
  | buttonEvent
  | userReset
  | linkCleanupFailed
  | linkRecordResponse
  | linkCleanupStatus
  | databaseRecordFound
deriving DecidableEq, Repr

/-- One named field of an extension entry's layout: the payload bytes `P[start .. start+len-1]`
(42_response_frames.md R162: "a field layout as parameters"). -/
structure LayoutField where
  name  : String
  start : Nat
  len   : Nat
deriving DecidableEq, Repr

/-- The record kinds a `RESP_TABLE` entry can name: the nineteen of 42_response_frames.md R140, in opcode order,
and an extension with its own layout (R162, D8). -/
inductive RspKind where
  | getInfo
  | linkCommandEcho
  | x10Sent
  | linkStart
  | linkCancel
  | categorySet
  | reset
  | ackByteSet
  | firstLinkRecord
  | nextLinkRecord
  | configSet
  | senderLinkRecord
  | ledOn
  | ledOff
  | linkRecordUpdate
  | nakByteSet
  | ackTwoBytesSet
  | sleep
  | configGet
  | extension (layout : List LayoutField)
deriving DecidableEq, Repr

/-- A record kind of either table. -/
inductive Kind where
  | msg (k : MsgKind)
  | rsp (k : RspKind)
deriving DecidableEq, Repr

/-- What `LOOKUP` answers (30_encoding.md R69, R70). -/
inductive Entry where
  | none
  | unsupported
  | entry (len : Len) (kind : Kind)
deriving DecidableEq, Repr

/-- What a listed opcode of `RESP_TABLE` maps to (R69); an opcode that is not listed maps to NONE. -/
inductive RespEntry where
  | unsupported
  | entry (len : Len) (kind : RspKind)
deriving DecidableEq, Repr

/-- The three buttons of a button event (41_message_frames.md R131). -/
inductive Button where
  | one
  | two
  | three
deriving DecidableEq, Repr

/-- The three actions of a button event (R124). -/
inductive ButtonAction where
  | tapped
  | held
  | released
deriving DecidableEq, Repr

/-- The role of a link result: "tri-state, not two booleans" (44_aux_codecs.md R199). -/
inductive LinkRole where
  | controller
  | responder
  | deleted
deriving DecidableEq, Repr

/-- The tables of the parameter set of an FSD instance (00_scope.md R6). A byte that a table does not list maps to
NONE. The one other open parameter, `X10_CMD_HOLE`, is `Config.x10CmdHole`. -/
structure Params where
  /-- `RESP_TABLE` (30_encoding.md R69). -/
  respTable     : List (Byte × RespEntry)
  /-- `BUTTON_TABLE` (41_message_frames.md R131). -/
  buttonTable   : List (Byte × (Button × ButtonAction))
  /-- `LINK_ROLE_TABLE` (44_aux_codecs.md R200). -/
  linkRoleTable : List (Byte × LinkRole)
deriving DecidableEq, Repr

/-- `X10_CMD_HOLE`, the X10 index that names no command: OPEN in the spec (43_x10_codec.md R176, D13). Its type has
exactly the 16 values 1..16 (as index − 1), which is check (f) of R7. DESIGN CHOICE (log entry 6): a free value, safe,
since nothing can be proved of it. -/
opaque Config.x10CmdHole : X10Index

/-- What a record field shows for a payload position at or beyond the frame's length: unspecified (70 R237, 10 R31).
A function of the opcode, the frame's own bytes and the position, so that no stale byte of the buffer is read (10 R31,
R34). The X10 message of an X10_SENT entry of length below 3 reads it too. DESIGN CHOICE (log entries 10 and 24): a free
value, safe. -/
opaque Config.beyondPayload : Byte → List Byte → Nat → Byte

/-- `MODE_L` after a reset edge: unspecified (10_state.md R34). DESIGN CHOICE (log entry 4): a free value, safe. -/
opaque Config.resetMode : Nat → Mode

/-- `OPC_R` after a reset edge: unspecified (R34). DESIGN CHOICE (log entry 4): a free value, safe. -/
opaque Config.resetOpcode : Nat → Byte

/-- `LEN_R` after a reset edge: unspecified (R34). DESIGN CHOICE (log entry 4): a free value, safe. -/
opaque Config.resetLen : Nat → Len

/-- `CNT` after a reset edge: unspecified (R34). DESIGN CHOICE (log entry 4): a free value, safe. -/
opaque Config.resetCnt : Nat → Len

/-- `BUF[0..19]` after a reset edge: unspecified (R34). DESIGN CHOICE (log entry 4): a free value, safe. -/
opaque Config.resetBuf : Nat → Vector Byte 20

end Sys2Proof
end

