-- ==== Sys2Proof/Machine/Tables.lean ====
section
/-! DEFINITION. The fixed values, the dispatch tables, the default parameter set and the lookup:
00_scope.md R6 and R7, 30_encoding.md R68 to R70, 41_message_frames.md R131, 42_response_frames.md R140,
44_aux_codecs.md R200. -/

namespace Sys2Proof

/-- `MARKER`, the start-of-frame byte (00_scope.md R6). -/
def markerByte : Byte := 0x02

/-- `OK_BYTE`, success or acknowledge (R6). -/
def okByte : Byte := 0x06

/-- `MAX_PAYLOAD`, the size of the payload buffer (R6). -/
def maxPayload : Nat := 20

/-- `X10_FAIL_BYTE`, what the X10 encoder writes for failure (R6, D14). -/
def x10FailByte : Byte := 0x15

/-- `CMD_NOARG_BYTE`, what the command encoder writes for a command without an argument (R6, D15). -/
def cmdNoargByte : Byte := 0x00

/-- `MSG_TABLE` (30_encoding.md R68): opcode, payload length, record kind. -/
def msgTable : List (Byte × (Len × MsgKind)) :=
  [(0x50, (6, .receivedStd)),
   (0x51, (20, .receivedExt)),
   (0x52, (3, .x10Received)),
   (0x53, (8, .linkComplete)),
   (0x54, (1, .buttonEvent)),
   (0x55, (0, .userReset)),
   (0x56, (5, .linkCleanupFailed)),
   (0x57, (8, .linkRecordResponse)),
   (0x58, (1, .linkCleanupStatus)),
   (0x59, (10, .databaseRecordFound))]

/-- The default `RESP_TABLE` (42_response_frames.md R140). PRESUMED (log entry 7), unsafe: but for the row of 0x62
the spec takes it from general knowledge. -/
def defaultRespTable : List (Byte × RespEntry) :=
  [(0x60, .entry 7 .getInfo),
   (0x61, .entry 4 .linkCommandEcho),
   (0x62, .unsupported),
   (0x63, .entry 3 .x10Sent),
   (0x64, .entry 3 .linkStart),
   (0x65, .entry 1 .linkCancel),
   (0x66, .entry 4 .categorySet),
   (0x67, .entry 1 .reset),
   (0x68, .entry 2 .ackByteSet),
   (0x69, .entry 1 .firstLinkRecord),
   (0x6A, .entry 1 .nextLinkRecord),
   (0x6B, .entry 2 .configSet),
   (0x6C, .entry 1 .senderLinkRecord),
   (0x6D, .entry 1 .ledOn),
   (0x6E, .entry 1 .ledOff),
   (0x6F, .entry 10 .linkRecordUpdate),
   (0x70, .entry 2 .nakByteSet),
   (0x71, .entry 3 .ackTwoBytesSet),
   (0x72, .entry 3 .sleep),
   (0x73, .entry 4 .configGet)]

/-- The default `BUTTON_TABLE` (41_message_frames.md R131). PRESUMED (log entry 8), unsafe: general knowledge. -/
def defaultButtonTable : List (Byte × (Button × ButtonAction)) :=
  [(0x02, (.one, .tapped)), (0x03, (.one, .held)), (0x04, (.one, .released)),
   (0x12, (.two, .tapped)), (0x13, (.two, .held)), (0x14, (.two, .released)),
   (0x22, (.three, .tapped)), (0x23, (.three, .held)), (0x24, (.three, .released))]

/-- The default `LINK_ROLE_TABLE` (44_aux_codecs.md R200). PRESUMED (log entry 9), unsafe: general knowledge. -/
def defaultLinkRoleTable : List (Byte × LinkRole) :=
  [(0x00, .responder), (0x01, .controller), (0xFF, .deleted)]

/-- The tables of the default instance (00_scope.md R6). -/
def defaultParams : Params where
  respTable     := defaultRespTable
  buttonTable   := defaultButtonTable
  linkRoleTable := defaultLinkRoleTable

/-- `LOOKUP(m, op)` (30_encoding.md R70). -/
def lookup (p : Params) (m : Mode) (op : Byte) : Entry :=
  match m with
  | .msg =>
    match msgTable.lookup op with
    | some (len, k) => .entry len (.msg k)
    | none => .none
  | .rsp =>
    match p.respTable.lookup op with
    | some (.entry len k) => .entry len (.rsp k)
    | some .unsupported => .unsupported
    | none => .none

/-- The kind of `LOOKUP(m, op)`, where the entry has one (R70). -/
def lookupKind (p : Params) (m : Mode) (op : Byte) : Option Kind :=
  match lookup p m op with
  | .entry _ k => some k
  | .unsupported => none
  | .none => none

/-- The payload index of `c1`, for the kinds that hold a command pair (44_aux_codecs.md R186): positions 3 and 4 of
`0x50` and `0x51`, positions 1 and 2 of the link-command echo. -/
def commandIndex (k : Kind) : Option Nat :=
  match k with
  | .msg .receivedStd => some 3
  | .msg .receivedExt => some 3
  | .rsp .linkCommandEcho => some 1
  | _ => none

/-- The thirteen command bytes `c1` (30_encoding.md R74). -/
def commandBytes : List Byte :=
  [0x08, 0x09, 0x0A, 0x10, 0x11, 0x12, 0x13, 0x14, 0x15, 0x16, 0x17, 0x18, 0x19]

/-- The kinds whose payload is a 3-byte X10 message (41_message_frames.md R122, 42_response_frames.md R145). -/
def carriesX10 (k : Kind) : Bool :=
  match k with
  | .msg .x10Received => true
  | .rsp .x10Sent => true
  | _ => false

/-- `BUTTON_TABLE(b)` (41_message_frames.md R131). -/
def buttonOf (p : Params) (b : Byte) : Option (Button × ButtonAction) := p.buttonTable.lookup b

/-- The byte that `BUTTON_TABLE` maps to a pair, where there is one (R131 read from right to left). -/
def buttonByte (p : Params) (bt : Button × ButtonAction) : Option Byte :=
  (p.buttonTable.find? fun r => r.2 == bt).map (·.1)

/-- `LINK_ROLE_TABLE(b)` (44_aux_codecs.md R200). -/
def linkRoleOf (p : Params) (b : Byte) : Option LinkRole := p.linkRoleTable.lookup b

/-- No element stands twice. -/
def distinct {α : Type} [BEq α] : List α → Bool
  | [] => true
  | a :: l => !l.contains a && distinct l

/-- The nine (button, action) pairs of R7 (d). -/
def allButtonPairs : List (Button × ButtonAction) :=
  [(.one, .tapped), (.one, .held), (.one, .released),
   (.two, .tapped), (.two, .held), (.two, .released),
   (.three, .tapped), (.three, .held), (.three, .released)]

/-- R7 (a): every entry's length is at most `MAX_PAYLOAD`. -/
def Params.lengthsFit (p : Params) : Bool :=
  p.respTable.all fun r => match r.2 with
    | .entry len _ => decide (len.toNat ≤ maxPayload)
    | .unsupported => true

/-- R7 (b): `RESP_TABLE(0x62) = UNSUPPORTED` and no other opcode maps to UNSUPPORTED. -/
def Params.onlyUnsupported (p : Params) : Bool :=
  p.respTable.lookup 0x62 == some .unsupported &&
  p.respTable.all fun r => match r.2 with
    | .unsupported => r.1 == 0x62
    | .entry _ _ => true

/-- R7 (c): no opcode of the message space is listed, and an opcode outside `0x60`–`0x73` is listed only as a
deliberate extension (D8). DESIGN CHOICE (log entry 26), safe: which entry is one, R7 leaves to the model; here it is an
entry of the kind `extension`, and one of the nineteen default kinds outside `0x60`–`0x73` is refused. -/
def Params.spaceKept (p : Params) : Bool :=
  p.respTable.all fun r =>
    !(decide (0x50#8 ≤ r.1) && decide (r.1 ≤ 0x59#8)) &&
    (match r.2 with
     | .entry _ (.extension _) => true
     | _ => decide (0x60#8 ≤ r.1) && decide (r.1 ≤ 0x73#8))

/-- R7 (d): `BUTTON_TABLE` lists exactly nine bytes, one to each of the nine pairs. -/
def Params.buttonsComplete (p : Params) : Bool :=
  p.buttonTable.length == 9 && allButtonPairs.all fun bt => (p.buttonTable.map (·.2)).contains bt

/-- R7 (e): at most one byte value to each of the three roles. -/
def Params.rolesUnique (p : Params) : Bool := distinct (p.linkRoleTable.map (·.2))

/-- No table lists a byte twice: a list that does is no table. DESIGN CHOICE (log entry 19), safe. -/
def Params.tablesAreMaps (p : Params) : Bool :=
  distinct (p.respTable.map (·.1)) && distinct (p.buttonTable.map (·.1)) && distinct (p.linkRoleTable.map (·.1))

/-- Parameter well-formedness (00_scope.md R7, checks (a) to (e); (f) holds by the type of `Config.x10CmdHole`). -/
def Params.ok (p : Params) : Bool :=
  p.lengthsFit && p.onlyUnsupported && p.spaceKept && p.buttonsComplete && p.rolesUnique && p.tablesAreMaps

end Sys2Proof
end

