-- ==== Sys2Proof/Syntax.lean ====
section
/-! DEFINITION. The instructions of the FSD: one constructor per row of spec/opcode_table.json, in the table's order.
A row is one byte at the position the row gives (its "position" or "opcode_position" column); the byte and the
operand bytes that belong to the row are taken one edge at a time (40_sync.md R90), so a constructor says which of
the row's edges it is. Log entry 1. -/

namespace Sys2Proof

/-- The edges of a frame row: the edge that takes the opcode byte (40_sync.md R93), or an edge that takes one
payload byte (R98). -/
inductive FrameEdge where
  | accept (op : Byte)
  | payload (b : Byte)
deriving DecidableEq, Repr

/-- The edges of a command pair `[c1, c2]` (20_memory.md R51): the edge that takes `c1`, or the one that takes the
data byte `c2`. -/
inductive CmdEdge where
  | select
  | data (c2 : Byte)
deriving DecidableEq, Repr

/-- The rows of spec/opcode_table.json. -/
inductive Instr where
  | marker
  | receivedStd (e : FrameEdge)
  | receivedExt (e : FrameEdge)
  | x10Received (e : FrameEdge)
  | linkComplete (e : FrameEdge)
  | buttonEvent (e : FrameEdge)
  | userReset
  | linkCleanupFailed (e : FrameEdge)
  | linkRecordResponse (e : FrameEdge)
  | linkCleanupStatus (e : FrameEdge)
  | databaseRecordFound (e : FrameEdge)
  | getInfo (e : FrameEdge)
  | linkCommandEcho (e : FrameEdge)
  | unsupported
  | x10Sent (e : FrameEdge)
  | linkStart (e : FrameEdge)
  | linkCancel (e : FrameEdge)
  | categorySet (e : FrameEdge)
  | reset (e : FrameEdge)
  | ackByteSet (e : FrameEdge)
  | firstLinkRecord (e : FrameEdge)
  | nextLinkRecord (e : FrameEdge)
  | configSet (e : FrameEdge)
  | senderLinkRecord (e : FrameEdge)
  | ledOn (e : FrameEdge)
  | ledOff (e : FrameEdge)
  | linkRecordUpdate (e : FrameEdge)
  | nakByteSet (e : FrameEdge)
  | ackTwoBytesSet (e : FrameEdge)
  | sleep (e : FrameEdge)
  | configGet (e : FrameEdge)
  | cmdCancelLinking (e : CmdEdge)
  | cmdBeginLinking (e : CmdEdge)
  | cmdBeginUnlinking (e : CmdEdge)
  | cmdIdRequest (e : CmdEdge)
  | cmdOn (e : CmdEdge)
  | cmdFastOn (e : CmdEdge)
  | cmdOff (e : CmdEdge)
  | cmdFastOff (e : CmdEdge)
  | cmdBright (e : CmdEdge)
  | cmdDim (e : CmdEdge)
  | cmdStart (e : CmdEdge)
  | cmdStop (e : CmdEdge)
  | cmdStatusRequest (e : CmdEdge)
  | btn1Tapped
  | btn1Held
  | btn1Released
  | btn2Tapped
  | btn2Held
  | btn2Released
  | btn3Tapped
  | btn3Held
  | btn3Released
  | x10Unit
  | x10Command
deriving DecidableEq, Repr

/-- Where in the stream a byte stands, as the FSD knows it when it takes the byte (10_state.md R36): scanning; after a
marker, with the value of the `mode` input; or at index `i` of a payload of kind `k`, the payload byte before it being
`prev` (any byte when `i = 0`). -/
inductive Position where
  | hunt
  | opcode (m : Mode)
  | payload (k : Kind) (i : Nat) (prev : Byte)
deriving DecidableEq, Repr

end Sys2Proof
end

