-- ==== Sys2Proof/WellFormed.lean ====
section
/-! DEFINITION. Which instruction terms are well formed, and at which position of the stream: 30_encoding.md R65 to
R75. A term is well formed where the byte it encodes to is that row's byte; an operand byte that another row claims
(a command byte, a button byte, an X10 flag) is that row's and not the frame's. -/

namespace Sys2Proof

/-- The payload byte `b` at index `i` of a kind-`k` payload belongs to a row of its own: a command byte `c1`, the
data byte after one, a button byte of the table, or an X10 flag (30_encoding.md R73). -/
def ownRow (p : Params) (k : Kind) (i : Nat) (prev b : Byte) : Bool :=
  (commandIndex k == some i && commandBytes.contains b) ||
  (i != 0 && commandIndex k == some (i - 1) && commandBytes.contains prev) ||
  (k == .msg .buttonEvent && i == 0 && (buttonOf p b).isSome) ||
  (carriesX10 k && i == 1 && (b == 0x00 || b == 0x80))

/-- A frame row's edge: its opcode byte where the table maps it to the row's kind, or a payload byte of its kind that
no other row claims. -/
def frameWellFormed (p : Params) (k : Kind) (pos : Position) (e : FrameEdge) : Bool :=
  match pos, e with
  | .opcode m, .accept op => lookupKind p m op == some k
  | .payload k' i prev, .payload b => k' == k && !ownRow p k' i prev b
  | _, _ => false

/-- A command row's edge: `c1` at its index, or the data byte right after that `c1` (R74, 44_aux_codecs.md R186). -/
def cmdWellFormed (c1 : Byte) (pos : Position) (e : CmdEdge) : Bool :=
  match pos, e with
  | .payload k i _, .select => commandIndex k == some i
  | .payload k i prev, .data _ => i != 0 && commandIndex k == some (i - 1) && prev == c1
  | _, _ => false

/-- A button row: payload byte 0 of a button event, for a pair the table lists (41_message_frames.md R131). -/
def buttonWellFormed (p : Params) (bt : Button × ButtonAction) (pos : Position) : Bool :=
  match pos with
  | .payload k i _ => k == .msg .buttonEvent && i == 0 && (buttonByte p bt).isSome
  | _ => false

/-- An X10 flag row: payload byte 1 of a kind that carries an X10 message (43_x10_codec.md R174). -/
def x10FlagWellFormed (pos : Position) : Bool :=
  match pos with
  | .payload k i _ => carriesX10 k && i == 1
  | _ => false

/-- Well-formedness of an instruction at a position, under a parameter set. -/
def Instr.wellFormed (p : Params) (pos : Position) (i : Instr) : Bool :=
  match i with
  | .marker => pos == .hunt
  | .receivedStd e => frameWellFormed p (.msg .receivedStd) pos e
  | .receivedExt e => frameWellFormed p (.msg .receivedExt) pos e
  | .x10Received e => frameWellFormed p (.msg .x10Received) pos e
  | .linkComplete e => frameWellFormed p (.msg .linkComplete) pos e
  | .buttonEvent e => frameWellFormed p (.msg .buttonEvent) pos e
  | .userReset => pos == .opcode .msg
  | .linkCleanupFailed e => frameWellFormed p (.msg .linkCleanupFailed) pos e
  | .linkRecordResponse e => frameWellFormed p (.msg .linkRecordResponse) pos e
  | .linkCleanupStatus e => frameWellFormed p (.msg .linkCleanupStatus) pos e
  | .databaseRecordFound e => frameWellFormed p (.msg .databaseRecordFound) pos e
  | .getInfo e => frameWellFormed p (.rsp .getInfo) pos e
  | .linkCommandEcho e => frameWellFormed p (.rsp .linkCommandEcho) pos e
  | .unsupported => pos == .opcode .rsp
  | .x10Sent e => frameWellFormed p (.rsp .x10Sent) pos e
  | .linkStart e => frameWellFormed p (.rsp .linkStart) pos e
  | .linkCancel e => frameWellFormed p (.rsp .linkCancel) pos e
  | .categorySet e => frameWellFormed p (.rsp .categorySet) pos e
  | .reset e => frameWellFormed p (.rsp .reset) pos e
  | .ackByteSet e => frameWellFormed p (.rsp .ackByteSet) pos e
  | .firstLinkRecord e => frameWellFormed p (.rsp .firstLinkRecord) pos e
  | .nextLinkRecord e => frameWellFormed p (.rsp .nextLinkRecord) pos e
  | .configSet e => frameWellFormed p (.rsp .configSet) pos e
  | .senderLinkRecord e => frameWellFormed p (.rsp .senderLinkRecord) pos e
  | .ledOn e => frameWellFormed p (.rsp .ledOn) pos e
  | .ledOff e => frameWellFormed p (.rsp .ledOff) pos e
  | .linkRecordUpdate e => frameWellFormed p (.rsp .linkRecordUpdate) pos e
  | .nakByteSet e => frameWellFormed p (.rsp .nakByteSet) pos e
  | .ackTwoBytesSet e => frameWellFormed p (.rsp .ackTwoBytesSet) pos e
  | .sleep e => frameWellFormed p (.rsp .sleep) pos e
  | .configGet e => frameWellFormed p (.rsp .configGet) pos e
  | .cmdCancelLinking e => cmdWellFormed 0x08 pos e
  | .cmdBeginLinking e => cmdWellFormed 0x09 pos e
  | .cmdBeginUnlinking e => cmdWellFormed 0x0A pos e
  | .cmdIdRequest e => cmdWellFormed 0x10 pos e
  | .cmdOn e => cmdWellFormed 0x11 pos e
  | .cmdFastOn e => cmdWellFormed 0x12 pos e
  | .cmdOff e => cmdWellFormed 0x13 pos e
  | .cmdFastOff e => cmdWellFormed 0x14 pos e
  | .cmdBright e => cmdWellFormed 0x15 pos e
  | .cmdDim e => cmdWellFormed 0x16 pos e
  | .cmdStart e => cmdWellFormed 0x17 pos e
  | .cmdStop e => cmdWellFormed 0x18 pos e
  | .cmdStatusRequest e => cmdWellFormed 0x19 pos e
  | .btn1Tapped => buttonWellFormed p (.one, .tapped) pos
  | .btn1Held => buttonWellFormed p (.one, .held) pos
  | .btn1Released => buttonWellFormed p (.one, .released) pos
  | .btn2Tapped => buttonWellFormed p (.two, .tapped) pos
  | .btn2Held => buttonWellFormed p (.two, .held) pos
  | .btn2Released => buttonWellFormed p (.two, .released) pos
  | .btn3Tapped => buttonWellFormed p (.three, .tapped) pos
  | .btn3Held => buttonWellFormed p (.three, .held) pos
  | .btn3Released => buttonWellFormed p (.three, .released) pos
  | .x10Unit => x10FlagWellFormed pos
  | .x10Command => x10FlagWellFormed pos

end Sys2Proof
end

