-- ==== Sys2Proof/Decode.lean ====
section
/-! DEFINITION. The decoder (total: every byte at every position gives an instruction or none) and after it the
encoder: 30_encoding.md R65 to R78. A byte that no row claims decodes to none; what the FSD does with it (noise,
an unrecognised opcode, a byte of an extension frame) stands in Machine/Sync.lean. -/

namespace Sys2Proof

/-- The frame row of a record kind (R68, 42_response_frames.md R140). USER_RESET has no payload, so only its opcode
edge exists (41_message_frames.md R125); an extension entry has no row (42_response_frames.md R162). -/
def frameInstr (k : Kind) (e : FrameEdge) : Option Instr :=
  match k with
  | .msg .receivedStd => some (.receivedStd e)
  | .msg .receivedExt => some (.receivedExt e)
  | .msg .x10Received => some (.x10Received e)
  | .msg .linkComplete => some (.linkComplete e)
  | .msg .buttonEvent => some (.buttonEvent e)
  | .msg .userReset =>
    match e with
    | .accept _ => some .userReset
    | .payload _ => none
  | .msg .linkCleanupFailed => some (.linkCleanupFailed e)
  | .msg .linkRecordResponse => some (.linkRecordResponse e)
  | .msg .linkCleanupStatus => some (.linkCleanupStatus e)
  | .msg .databaseRecordFound => some (.databaseRecordFound e)
  | .rsp .getInfo => some (.getInfo e)
  | .rsp .linkCommandEcho => some (.linkCommandEcho e)
  | .rsp .x10Sent => some (.x10Sent e)
  | .rsp .linkStart => some (.linkStart e)
  | .rsp .linkCancel => some (.linkCancel e)
  | .rsp .categorySet => some (.categorySet e)
  | .rsp .reset => some (.reset e)
  | .rsp .ackByteSet => some (.ackByteSet e)
  | .rsp .firstLinkRecord => some (.firstLinkRecord e)
  | .rsp .nextLinkRecord => some (.nextLinkRecord e)
  | .rsp .configSet => some (.configSet e)
  | .rsp .senderLinkRecord => some (.senderLinkRecord e)
  | .rsp .ledOn => some (.ledOn e)
  | .rsp .ledOff => some (.ledOff e)
  | .rsp .linkRecordUpdate => some (.linkRecordUpdate e)
  | .rsp .nakByteSet => some (.nakByteSet e)
  | .rsp .ackTwoBytesSet => some (.ackTwoBytesSet e)
  | .rsp .sleep => some (.sleep e)
  | .rsp .configGet => some (.configGet e)
  | .rsp (.extension _) => none

/-- The command row that `c1` selects (30_encoding.md R74). -/
def cmdInstr (c1 : Byte) (e : CmdEdge) : Option Instr :=
  if c1 = 0x08 then some (.cmdCancelLinking e)
  else if c1 = 0x09 then some (.cmdBeginLinking e)
  else if c1 = 0x0A then some (.cmdBeginUnlinking e)
  else if c1 = 0x10 then some (.cmdIdRequest e)
  else if c1 = 0x11 then some (.cmdOn e)
  else if c1 = 0x12 then some (.cmdFastOn e)
  else if c1 = 0x13 then some (.cmdOff e)
  else if c1 = 0x14 then some (.cmdFastOff e)
  else if c1 = 0x15 then some (.cmdBright e)
  else if c1 = 0x16 then some (.cmdDim e)
  else if c1 = 0x17 then some (.cmdStart e)
  else if c1 = 0x18 then some (.cmdStop e)
  else if c1 = 0x19 then some (.cmdStatusRequest e)
  else none

/-- The button row of a (button, action) pair (41_message_frames.md R131). -/
def buttonInstr (bt : Button × ButtonAction) : Instr :=
  match bt with
  | (.one, .tapped) => .btn1Tapped
  | (.one, .held) => .btn1Held
  | (.one, .released) => .btn1Released
  | (.two, .tapped) => .btn2Tapped
  | (.two, .held) => .btn2Held
  | (.two, .released) => .btn2Released
  | (.three, .tapped) => .btn3Tapped
  | (.three, .held) => .btn3Held
  | (.three, .released) => .btn3Released

/-- The row of its own that a payload byte belongs to, if any (30_encoding.md R73): a command byte, the data byte
after one, a button byte, an X10 flag. -/
def ownInstr (p : Params) (k : Kind) (i : Nat) (prev b : Byte) : Option Instr :=
  if commandIndex k = some i then cmdInstr b .select
  else if i ≠ 0 ∧ commandIndex k = some (i - 1) then cmdInstr prev (.data b)
  else if k = .msg .buttonEvent ∧ i = 0 then (buttonOf p b).map buttonInstr
  else if carriesX10 k ∧ i = 1 then
    if b = 0x00 then some .x10Unit
    else if b = 0x80 then some .x10Command
    else none
  else none

/-- The decoder: the row that a byte is, at a position (40_sync.md R92, R93, R98; 30_encoding.md R70). -/
def decode (p : Params) (pos : Position) (b : Byte) : Option Instr :=
  match pos with
  | .hunt => if b = markerByte then some .marker else none
  | .opcode m =>
    match lookup p m b with
    | .none => none
    | .unsupported => some .unsupported
    | .entry _ k => frameInstr k (.accept b)
  | .payload k i prev =>
    match ownInstr p k i prev b with
    | some i => some i
    | none => frameInstr k (.payload b)

/-- The byte a frame row's edge takes. -/
def FrameEdge.byte (e : FrameEdge) : Byte :=
  match e with
  | .accept op => op
  | .payload b => b

/-- The byte a command row's edge takes: `c1`, or its data byte. -/
def CmdEdge.byte (c1 : Byte) (e : CmdEdge) : Byte :=
  match e with
  | .select => c1
  | .data c2 => c2

/-- The encoder: the byte an instruction stands for (30_encoding.md R65, R68, R74; 42_response_frames.md R140).
Only well-formed instructions have an encoding; the byte of a pair that `BUTTON_TABLE` does not list is 0x00 and is no
well-formed instruction's. -/
def encode (p : Params) (i : Instr) : Byte :=
  match i with
  | .marker => 0x02
  | .receivedStd e => e.byte
  | .receivedExt e => e.byte
  | .x10Received e => e.byte
  | .linkComplete e => e.byte
  | .buttonEvent e => e.byte
  | .userReset => 0x55
  | .linkCleanupFailed e => e.byte
  | .linkRecordResponse e => e.byte
  | .linkCleanupStatus e => e.byte
  | .databaseRecordFound e => e.byte
  | .getInfo e => e.byte
  | .linkCommandEcho e => e.byte
  | .unsupported => 0x62
  | .x10Sent e => e.byte
  | .linkStart e => e.byte
  | .linkCancel e => e.byte
  | .categorySet e => e.byte
  | .reset e => e.byte
  | .ackByteSet e => e.byte
  | .firstLinkRecord e => e.byte
  | .nextLinkRecord e => e.byte
  | .configSet e => e.byte
  | .senderLinkRecord e => e.byte
  | .ledOn e => e.byte
  | .ledOff e => e.byte
  | .linkRecordUpdate e => e.byte
  | .nakByteSet e => e.byte
  | .ackTwoBytesSet e => e.byte
  | .sleep e => e.byte
  | .configGet e => e.byte
  | .cmdCancelLinking e => e.byte 0x08
  | .cmdBeginLinking e => e.byte 0x09
  | .cmdBeginUnlinking e => e.byte 0x0A
  | .cmdIdRequest e => e.byte 0x10
  | .cmdOn e => e.byte 0x11
  | .cmdFastOn e => e.byte 0x12
  | .cmdOff e => e.byte 0x13
  | .cmdFastOff e => e.byte 0x14
  | .cmdBright e => e.byte 0x15
  | .cmdDim e => e.byte 0x16
  | .cmdStart e => e.byte 0x17
  | .cmdStop e => e.byte 0x18
  | .cmdStatusRequest e => e.byte 0x19
  | .btn1Tapped => (buttonByte p (.one, .tapped)).getD 0x00
  | .btn1Held => (buttonByte p (.one, .held)).getD 0x00
  | .btn1Released => (buttonByte p (.one, .released)).getD 0x00
  | .btn2Tapped => (buttonByte p (.two, .tapped)).getD 0x00
  | .btn2Held => (buttonByte p (.two, .held)).getD 0x00
  | .btn2Released => (buttonByte p (.two, .released)).getD 0x00
  | .btn3Tapped => (buttonByte p (.three, .tapped)).getD 0x00
  | .btn3Held => (buttonByte p (.three, .held)).getD 0x00
  | .btn3Released => (buttonByte p (.three, .released)).getD 0x00
  | .x10Unit => 0x00
  | .x10Command => 0x80

/-- The bytes of a table word: byte 0 is bits 7..0, byte 1 bits 15..8, and so on. -/
def wordBytes (nbits w : Nat) : List Byte :=
  (List.range (nbits / 8)).map fun j => BitVec.ofNat 8 (w >>> (8 * j))

/-- The position at which the opcode table's row for a first byte stands (its "position", "mode" and
"opcode_position" columns). Four bytes stand in two rows; the table's earlier row is taken. Log entry 1. -/
def rowPosition (b : Byte) : Option Position :=
  if b = markerByte then some .hunt
  else if (lookupKind defaultParams .msg b).isSome then some (.opcode .msg)
  else if lookup defaultParams .rsp b ≠ .none then some (.opcode .rsp)
  else if commandBytes.contains b then some (.payload (.msg .receivedStd) 3 0x00)
  else if (buttonOf defaultParams b).isSome then some (.payload (.msg .buttonEvent) 0 0x00)
  else if b = 0x00 ∨ b = 0x80 then some (.payload (.msg .x10Received) 1 0x00)
  else none

/-- The instruction the decoder reads from a word of spec/opcode_table.json, at the position its row stands at. -/
def decodeTableWord (nbits w : Nat) : Option Instr :=
  match wordBytes nbits w with
  | [] => none
  | b :: _ =>
    match rowPosition b with
    | some pos => decode defaultParams pos b
    | none => none

end Sys2Proof
end

