-- ==== Sys2Proof/Machine/Record.lean ====
section
/-! DEFINITION. The values that records are made of, and the records: 00_scope.md R11, 41_message_frames.md R120 to
R130, 42_response_frames.md R141 to R162, 43_x10_codec.md R173 to R178, 44_aux_codecs.md R185 to R201. Each record
kind has exactly the fields its rule lists (R130). -/

namespace Sys2Proof

/-- A device address, "3 bytes, ordered high/middle/low", passed through (20_memory.md R49, 44_aux_codecs.md R185). -/
structure Address where
  high   : Byte
  middle : Byte
  low    : Byte
deriving DecidableEq, Repr

/-- The direction of Start (44_aux_codecs.md R189). -/
inductive Direction where
  | bright
  | dim
deriving DecidableEq, Repr

/-- The argument of On: a group number or an on level, wire-identical (R188, R194). -/
inductive OnArgument where
  | group (g : Byte)
  | level (v : Byte)
deriving DecidableEq, Repr

/-- The thirteen commands (R186). An optional group is `none` for Absent (R187). -/
inductive Command where
  | cancelLinking
  | beginLinking (g : Byte)
  | beginUnlinking (g : Byte)
  | idRequest
  | on (arg : OnArgument)
  | fastOn (g : Option Byte)
  | off (g : Option Byte)
  | fastOff (g : Option Byte)
  | bright (g : Option Byte)
  | dim (g : Option Byte)
  | start (d : Direction)
  | stop
  | statusRequest
deriving DecidableEq, Repr

/-- The payload of an X10 message: a unit code, or a command by its index (43_x10_codec.md R173, R176). -/
inductive X10Payload where
  | unit (u : X10Index)
  | command (c : X10Index)
deriving DecidableEq, Repr

/-- A decoded X10 message (R173). -/
structure X10Message where
  house   : X10Index
  payload : X10Payload
  success : Bool
deriving DecidableEq, Repr

/-- The five Config flags (44_aux_codecs.md R197). -/
structure ConfigFlags where
  autoLink   : Bool
  monitor    : Bool
  manualLed  : Bool
  timeout    : Bool
  busyReject : Bool
deriving DecidableEq, Repr

/-- The link result of message `0x53` (R199). `catValid` says whether category and subcategory mean anything. -/
structure LinkResult where
  role        : LinkRole
  group       : Byte
  addr        : Address
  addrValue   : BitVec 24
  category    : Byte
  subcategory : Byte
  catValid    : Bool
  firmware    : Option Byte
deriving DecidableEq, Repr

/-- The decoded records. -/
inductive Record where
  /-- R120, `0x50`. -/
  | receivedStd (addr : Address) (addrValue : BitVec 24) (cmd : Option Command) (cmdRaw : Byte × Byte)
      (flags : Byte) (ext : Option (List Byte))
  /-- R121, `0x51`. -/
  | receivedExt (addr : Address) (addrValue : BitVec 24) (cmd : Option Command) (cmdRaw : Byte × Byte)
      (flags : Byte) (ext : Option (List Byte))
  /-- R122, `0x52`. -/
  | x10Received (house : X10Index) (payload : X10Payload) (success : Bool)
  /-- R123, `0x53`. -/
  | linkComplete (result : LinkResult)
  /-- R124, `0x54`. -/
  | buttonEvent (button : Button) (action : ButtonAction)
  /-- R125, `0x55`. -/
  | userReset
  /-- R126, `0x56`. -/
  | linkCleanupFailed (group : Byte) (addr : Address) (addrValue : BitVec 24)
  /-- R127, `0x57`. -/
  | linkRecordResponse (flags group : Byte) (addr : Address) (addrValue : BitVec 24) (linkData : Byte × Byte × Byte)
  /-- R128, `0x58`. -/
  | linkCleanupStatus (success : Bool)
  /-- R129, `0x59`. -/
  | databaseRecordFound (dbAddr : Byte × Byte) (dbAddrValue : BitVec 16) (flags group : Byte) (id : Address)
      (idValue : BitVec 24) (linkData : Byte × Byte × Byte)
  /-- R141, `0x62`. -/
  | unsupported (opcode : Byte)
  /-- R143, `0x60`. -/
  | getInfo (id : Address) (idValue : BitVec 24) (category subcategory firmware : Byte) (ack : Bool)
  /-- R144, `0x61`. -/
  | linkCommandEcho (group : Byte) (cmd : Option Command) (cmdRaw : Byte × Byte) (ack : Bool)
  /-- R145, `0x63`. -/
  | x10Sent (house : X10Index) (payload : X10Payload) (success : Bool)
  /-- R146, `0x64`. -/
  | linkStart (code group : Byte) (ack : Bool)
  /-- R147, `0x65`. -/
  | linkCancel (ack : Bool)
  /-- R148, `0x66`. -/
  | categorySet (category subcategory firmware : Byte) (ack : Bool)
  /-- R149, `0x67`. -/
  | reset (ack : Bool)
  /-- R150, `0x68`. -/
  | ackByteSet (cmd2 : Byte) (ack : Bool)
  /-- R151, `0x69`. -/
  | firstLinkRecord (ack : Bool)
  /-- R152, `0x6A`. -/
  | nextLinkRecord (ack : Bool)
  /-- R153, `0x6B`. -/
  | configSet (config : ConfigFlags) (configRaw : Byte) (ack : Bool)
  /-- R154, `0x6C`. -/
  | senderLinkRecord (ack : Bool)
  /-- R155, `0x6D`. -/
  | ledOn (ack : Bool)
  /-- R156, `0x6E`. -/
  | ledOff (ack : Bool)
  /-- R157, `0x6F`. -/
  | linkRecordUpdate (control flags group : Byte) (addr : Address) (addrValue : BitVec 24)
      (linkData : Byte × Byte × Byte) (ack : Bool)
  /-- R158, `0x70`. -/
  | nakByteSet (cmd2 : Byte) (ack : Bool)
  /-- R159, `0x71`. -/
  | ackTwoBytesSet (cmd1 cmd2 : Byte) (ack : Bool)
  /-- R160, `0x72`. -/
  | sleep (cmd1 cmd2 : Byte) (ack : Bool)
  /-- R161, `0x73`. -/
  | configGet (config : ConfigFlags) (configRaw : Byte) (spare : Byte × Byte) (ack : Bool)
  /-- R162: a record of an extension entry, its fields named by the entry's layout. -/
  | extension (opcode : Byte) (fields : List (String × List Byte))
deriving DecidableEq, Repr

end Sys2Proof
end

