-- ==== Sys2Proof/Machine/Flags.lean ====
section
/-! DEFINITION. Every boolean field the spec computes ("flags written"): the success and acknowledge tests
(41_message_frames.md R128, 42_response_frames.md R142, 43_x10_codec.md R175), the category flag (44_aux_codecs.md
R199) and the Config bits (R197, R198). Booleans of records, not state (10_state.md R32). -/

namespace Sys2Proof

/-- The success test of `0x58` and of the X10 status byte: `b = 0x06` (R128, R175). -/
def success (b : Byte) : Bool := b == okByte

/-- `ACK(b)`: `b = 0x06`; every other value is not acknowledged (R142). -/
def ack (b : Byte) : Bool := b == okByte

/-- `cat_valid`: "meaningful only when role = controller" (R199). -/
def categoryValid (r : LinkRole) : Bool := r == .controller

/-- `CFG_DEC(b)` (R197): bits 7 and 4 are stored inverted, bits 2 to 0 are ignored. -/
def cfgDec (b : Byte) : ConfigFlags where
  autoLink   := !b.getLsbD 7
  monitor    := b.getLsbD 6
  manualLed  := b.getLsbD 5
  timeout    := !b.getLsbD 4
  busyReject := b.getLsbD 3

/-- `CFG_ENC(cfg)` (R198): bits 2 to 0 are always written 0. -/
def cfgEnc (c : ConfigFlags) : Byte :=
  (if c.autoLink then 0x00 else 0x80) ||| (if c.monitor then 0x40 else 0x00) |||
  (if c.manualLed then 0x20 else 0x00) ||| (if c.timeout then 0x00 else 0x10) |||
  (if c.busyReject then 0x08 else 0x00)

end Sys2Proof
end

