-- ==== Sys2Proof/Machine/Operands.lean ====
section
/-! DEFINITION. The operand forms: how a payload's bytes become fields (20_memory.md R48 to R52, 30_encoding.md R82,
44_aux_codecs.md R185 and R199 to R201). -/

namespace Sys2Proof

/-- The payload of a frame as the rules write it: `P i` is the byte at zero-based index `i` (00_scope.md R9). -/
abbrev Payload := Nat → Byte

/-- The payload of a frame of length `len` in the buffer: `BUF[i]` for `i < len`, and no other byte of the buffer is read
(10_state.md R31, R34). A position at or beyond the length is no part of the record (70 R237), so it is a free value
there: in a record field (log entry 10), and in the X10 message of an X10_SENT entry of length below 3 (log entry 24). -/
def payloadOf (op : Byte) (buf : Vector Byte 20) (len : Len) : Payload := fun i =>
  if i < len.toNat then buf.toList.getD i 0x00 else Config.beyondPayload op (buf.toList.take len.toNat) i

/-- `b[7:4]` (R8). -/
def highNibble (b : Byte) : Nibble := b.extractLsb' 4 4

/-- `b[3:0]` (R8). -/
def lowNibble (b : Byte) : Nibble := b.extractLsb' 0 4

/-- `ADDR_REDUCE(high, middle, low) = high·2^16 + middle·2^8 + low` (44_aux_codecs.md R185). -/
def addrReduce (high middle low : Byte) : BitVec 24 :=
  BitVec.ofNat 24 (high.toNat * 2 ^ 16 + middle.toNat * 2 ^ 8 + low.toNat)

/-- `A(k)`, the Address at payload positions `k, k+1, k+2`: the first byte is the high one (20_memory.md R49). -/
def addressAt (P : Payload) (k : Nat) : Address := ⟨P k, P (k + 1), P (k + 2)⟩

/-- `ADDR_REDUCE(P[k], P[k+1], P[k+2])`. -/
def addressValueAt (P : Payload) (k : Nat) : BitVec 24 := addrReduce (P k) (P (k + 1)) (P (k + 2))

/-- The 16-bit value `{a, b}`, first byte high (R50). -/
def pairValue (a b : Byte) : BitVec 16 := a ++ b

/-- The bytes `P[start .. start+len-1]` in wire order (R9, R121). -/
def bytesAt (P : Payload) (start len : Nat) : List Byte := (List.range len).map fun i => P (start + i)

/-- `GRP(c2)`, the optional group: `0x00` is Absent (44_aux_codecs.md R187). -/
def optionalGroup (c2 : Byte) : Option Byte := if c2 = 0x00 then none else some c2

/-- `DIR(c2)`: `0x01` is Bright, any other value is Dim (R189). -/
def direction (c2 : Byte) : Direction := if c2 = 0x01 then .bright else .dim

/-- The LinkResult firmware byte: `0xFF` means absent (R201). -/
def firmwareOf (b : Byte) : Option Byte := if b = 0xFF then none else some b

/-- `LINK_RESULT(P[0..7])` (R199); no value when the role byte is not in `LINK_ROLE_TABLE`. -/
def linkResult (p : Params) (P : Payload) : Option LinkResult :=
  (linkRoleOf p (P 0)).map fun r =>
    { role        := r
      group       := P 1
      addr        := addressAt P 2
      addrValue   := addressValueAt P 2
      category    := P 5
      subcategory := P 6
      catValid    := categoryValid r
      firmware    := firmwareOf (P 7) }

end Sys2Proof
end

