-- ==== Sys2Proof/Machine/CommandCodec.lean ====
section
/-! DEFINITION. The command codec, both directions: 44_aux_codecs.md R186 to R196. A stateless unit. -/

namespace Sys2Proof

/-- `CMD_DEC(c1, c2)` (R186 to R191); no command for any other `c1`. -/
def cmdDec (c1 c2 : Byte) : Option Command :=
  if c1 = 0x08 then some .cancelLinking
  else if c1 = 0x09 then some (.beginLinking c2)
  else if c1 = 0x0A then some (.beginUnlinking c2)
  else if c1 = 0x10 then some .idRequest
  else if c1 = 0x11 then some (.on (.group c2))
  else if c1 = 0x12 then some (.fastOn (optionalGroup c2))
  else if c1 = 0x13 then some (.off (optionalGroup c2))
  else if c1 = 0x14 then some (.fastOff (optionalGroup c2))
  else if c1 = 0x15 then some (.bright (optionalGroup c2))
  else if c1 = 0x16 then some (.dim (optionalGroup c2))
  else if c1 = 0x17 then some (.start (direction c2))
  else if c1 = 0x18 then some .stop
  else if c1 = 0x19 then some .statusRequest
  else none

/-- The data byte of an optional group (R193). -/
def groupByte (g : Option Byte) : Byte := g.getD 0x00

/-- The data byte of On: a group and a level are written alike (R194). -/
def onByte (a : OnArgument) : Byte :=
  match a with
  | .group g => g
  | .level v => v

/-- The data byte of Start: Dim always emits `0x00` (R195). -/
def directionByte (d : Direction) : Byte :=
  match d with
  | .bright => 0x01
  | .dim => 0x00

/-- `CMD_ENC(cmd)`, exactly two bytes `[c1, c2]` (R192 to R196). -/
def cmdEnc (c : Command) : Byte × Byte :=
  match c with
  | .cancelLinking => (0x08, cmdNoargByte)
  | .beginLinking g => (0x09, g)
  | .beginUnlinking g => (0x0A, g)
  | .idRequest => (0x10, cmdNoargByte)
  | .on a => (0x11, onByte a)
  | .fastOn g => (0x12, groupByte g)
  | .off g => (0x13, groupByte g)
  | .fastOff g => (0x14, groupByte g)
  | .bright g => (0x15, groupByte g)
  | .dim g => (0x16, groupByte g)
  | .start d => (0x17, directionByte d)
  | .stop => (0x18, cmdNoargByte)
  | .statusRequest => (0x19, cmdNoargByte)

/-- A present optional group is a GroupNumber in 1..255 (R187, R193). -/
def groupWellFormed (g : Option Byte) : Bool := g != some 0x00

/-- A command whose optional group, if present, is in 1..255. -/
def Command.wellFormed (c : Command) : Bool :=
  match c with
  | .fastOn g => groupWellFormed g
  | .off g => groupWellFormed g
  | .fastOff g => groupWellFormed g
  | .bright g => groupWellFormed g
  | .dim g => groupWellFormed g
  | .cancelLinking => true
  | .beginLinking _ => true
  | .beginUnlinking _ => true
  | .idRequest => true
  | .on _ => true
  | .start _ => true
  | .stop => true
  | .statusRequest => true

end Sys2Proof
end

