-- ==== Sys2Proof/Machine/X10Codec.lean ====
section
/-! DEFINITION. The X10 nibble-permutation codec: 43_x10_codec.md R170 to R178. A stateless unit. -/

namespace Sys2Proof

/-- The index `i`, in 1..16, as the spec writes it. -/
def X10Index.number (i : X10Index) : Nat := i.val + 1

/-- The index the spec writes as `n`, in 1..16. -/
def x10Index (n : Nat) : X10Index := Fin.ofNat 16 (n - 1)

/-- The indices of the nibbles `0x0` to `0xF`, in nibble order (R170, sorted). -/
def nibbleIndices : List Nat := [13, 5, 3, 11, 15, 7, 1, 9, 14, 6, 4, 12, 16, 8, 2, 10]

/-- The nibbles of the indices 1 to 16, in index order (R171). -/
def indexNibbles : List Nibble :=
  [0x6, 0xE, 0x2, 0xA, 0x1, 0x9, 0x5, 0xD, 0x7, 0xF, 0x3, 0xB, 0x0, 0x8, 0x4, 0xC]

/-- `NIB2IDX` (R170), a total map. -/
def nib2idx (n : Nibble) : X10Index := x10Index (nibbleIndices.getD n.toNat 1)

/-- `IDX2NIB` (R171), a total map. -/
def idx2nib (i : X10Index) : Nibble := indexNibbles.getD i.val 0x0

/-- `X10_DEC(b0, b1, b2)` (R173 to R176). -/
def x10Dec (b0 b1 b2 : Byte) : Option X10Message :=
  let h := nib2idx (highNibble b0)
  let s := nib2idx (lowNibble b0)
  if b1 = 0x00 then some ⟨h, .unit s, success b2⟩
  else if b1 = 0x80 then
    if s = Config.x10CmdHole then none else some ⟨h, .command s, success b2⟩
  else none

/-- `X10_ENC(x)` (R177); a command at the hole has no encoding. -/
def x10Enc (x : X10Message) : Option (Byte × Byte × Byte) :=
  let b2 := if x.success then okByte else x10FailByte
  match x.payload with
  | .unit u => some (idx2nib x.house ++ idx2nib u, 0x00, b2)
  | .command c =>
    if c = Config.x10CmdHole then none else some (idx2nib x.house ++ idx2nib c, 0x80, b2)

/-- The 4-bit port value of an index: `index − 1` (R178). -/
def x10Port (i : X10Index) : Nibble := BitVec.ofNat 4 (i.number - 1)

/-- The letter of a house index: `'A' + (index − 1)` (R178). PRESUMED (log entry 18), safe: no rule reads it. -/
def houseLetter (i : X10Index) : Char := Char.ofNat ('A'.toNat + (i.number - 1))

end Sys2Proof
end

