-- ==== Sys2Proof/Machine/RecordBuilders.lean ====
section
/-! DEFINITION. The record builders, one per record kind, and the validity check: 41_message_frames.md R120 to R130,
42_response_frames.md R141 to R162, 40_sync.md R100. A builder that answers `none` is a frame that is discarded. -/

namespace Sys2Proof

/-- R120. -/
def recReceivedStd (P : Payload) : Record :=
  .receivedStd (addr := addressAt P 0) (addrValue := addressValueAt P 0) (cmd := cmdDec (P 3) (P 4))
    (cmdRaw := (P 3, P 4)) (flags := P 5) (ext := none)

/-- R121: the last 14 bytes are the extended data block. -/
def recReceivedExt (P : Payload) : Record :=
  .receivedExt (addr := addressAt P 0) (addrValue := addressValueAt P 0) (cmd := cmdDec (P 3) (P 4))
    (cmdRaw := (P 3, P 4)) (flags := P 5) (ext := some (bytesAt P 6 14))

/-- R122. -/
def recX10Received (P : Payload) : Option Record :=
  (x10Dec (P 0) (P 1) (P 2)).map fun x =>
    .x10Received (house := x.house) (payload := x.payload) (success := x.success)

/-- R123. -/
def recLinkComplete (p : Params) (P : Payload) : Option Record :=
  (linkResult p P).map fun r => .linkComplete (result := r)

/-- R124. -/
def recButtonEvent (p : Params) (P : Payload) : Option Record :=
  (buttonOf p (P 0)).map fun t => .buttonEvent (button := t.1) (action := t.2)

/-- R125. -/
def recUserReset : Record := .userReset

/-- R126: `P[0]` is skipped. -/
def recLinkCleanupFailed (P : Payload) : Record :=
  .linkCleanupFailed (group := P 1) (addr := addressAt P 2) (addrValue := addressValueAt P 2)

/-- R127. -/
def recLinkRecordResponse (P : Payload) : Record :=
  .linkRecordResponse (flags := P 0) (group := P 1) (addr := addressAt P 2) (addrValue := addressValueAt P 2)
    (linkData := (P 5, P 6, P 7))

/-- R128. -/
def recLinkCleanupStatus (P : Payload) : Record := .linkCleanupStatus (success := success (P 0))

/-- R129. -/
def recDatabaseRecordFound (P : Payload) : Record :=
  .databaseRecordFound (dbAddr := (P 0, P 1)) (dbAddrValue := pairValue (P 0) (P 1)) (flags := P 2) (group := P 3)
    (id := addressAt P 4) (idValue := addressValueAt P 4) (linkData := (P 7, P 8, P 9))

/-- R143: `firmware` is raw; the `0xFF` sentinel is not applied here. DESIGN CHOICE (log entry 25), unsafe: here and in
every response builder below, a field and the acknowledge stand at the indices of the kind's own rule, `P 6` here, whatever
length the table gives the kind; R140's `P[L-1]` is that index at the default length only. -/
def recGetInfo (P : Payload) : Record :=
  .getInfo (id := addressAt P 0) (idValue := addressValueAt P 0) (category := P 3) (subcategory := P 4)
    (firmware := P 5) (ack := ack (P 6))

/-- R144. -/
def recLinkCommandEcho (P : Payload) : Record :=
  .linkCommandEcho (group := P 0) (cmd := cmdDec (P 1) (P 2)) (cmdRaw := (P 1, P 2)) (ack := ack (P 3))

/-- The X10 message of an X10_SENT frame of table length `len` (R145). At length 0 the check is true (40_sync.md R96), so a
message parses: a free one, of the free values that `payloadOf` gives, with the unit flag in place of a flag or hole that
does not parse. DESIGN CHOICE (log entry 24), safe. -/
def x10SentMessage (len : Len) (P : Payload) : Option X10Message :=
  if len = 0 then (x10Dec (P 0) (P 1) (P 2)).or (x10Dec (P 0) 0x00 (P 2))
  else x10Dec (P 0) (P 1) (P 2)

/-- R145. -/
def recX10Sent (len : Len) (P : Payload) : Option Record :=
  (x10SentMessage len P).map fun x =>
    .x10Sent (house := x.house) (payload := x.payload) (success := x.success)

/-- R146: `code` is raw, not a link role. -/
def recLinkStart (P : Payload) : Record := .linkStart (code := P 0) (group := P 1) (ack := ack (P 2))

/-- R147. -/
def recLinkCancel (P : Payload) : Record := .linkCancel (ack := ack (P 0))

/-- R148. -/
def recCategorySet (P : Payload) : Record :=
  .categorySet (category := P 0) (subcategory := P 1) (firmware := P 2) (ack := ack (P 3))

/-- R149. -/
def recReset (P : Payload) : Record := .reset (ack := ack (P 0))

/-- R150. -/
def recAckByteSet (P : Payload) : Record := .ackByteSet (cmd2 := P 0) (ack := ack (P 1))

/-- R151. -/
def recFirstLinkRecord (P : Payload) : Record := .firstLinkRecord (ack := ack (P 0))

/-- R152. -/
def recNextLinkRecord (P : Payload) : Record := .nextLinkRecord (ack := ack (P 0))

/-- R153. -/
def recConfigSet (P : Payload) : Record :=
  .configSet (config := cfgDec (P 0)) (configRaw := P 0) (ack := ack (P 1))

/-- R154. -/
def recSenderLinkRecord (P : Payload) : Record := .senderLinkRecord (ack := ack (P 0))

/-- R155. -/
def recLedOn (P : Payload) : Record := .ledOn (ack := ack (P 0))

/-- R156. -/
def recLedOff (P : Payload) : Record := .ledOff (ack := ack (P 0))

/-- R157. -/
def recLinkRecordUpdate (P : Payload) : Record :=
  .linkRecordUpdate (control := P 0) (flags := P 1) (group := P 2) (addr := addressAt P 3)
    (addrValue := addressValueAt P 3) (linkData := (P 6, P 7, P 8)) (ack := ack (P 9))

/-- R158. -/
def recNakByteSet (P : Payload) : Record := .nakByteSet (cmd2 := P 0) (ack := ack (P 1))

/-- R159: both bytes raw; they are not decoded as a command. -/
def recAckTwoBytesSet (P : Payload) : Record := .ackTwoBytesSet (cmd1 := P 0) (cmd2 := P 1) (ack := ack (P 2))

/-- R160. -/
def recSleep (P : Payload) : Record := .sleep (cmd1 := P 0) (cmd2 := P 1) (ack := ack (P 2))

/-- R161: the spare bytes are passed through. -/
def recConfigGet (P : Payload) : Record :=
  .configGet (config := cfgDec (P 0)) (configRaw := P 0) (spare := (P 1, P 2)) (ack := ack (P 3))

/-- R162: the fields of an extension entry's layout. DESIGN CHOICE (log entry 11): a layout is a list of named byte
ranges. -/
def recExtension (layout : List LayoutField) (op : Byte) (P : Payload) : Record :=
  .extension (opcode := op) (fields := layout.map fun f => (f.name, bytesAt P f.start f.len))

/-- The record of a kind of table length `len`, by the rule of that kind (R130, R162). -/
def recKind (p : Params) (k : Kind) (op : Byte) (len : Len) (P : Payload) : Option Record :=
  match k with
  | .msg .receivedStd => some (recReceivedStd P)
  | .msg .receivedExt => some (recReceivedExt P)
  | .msg .x10Received => recX10Received P
  | .msg .linkComplete => recLinkComplete p P
  | .msg .buttonEvent => recButtonEvent p P
  | .msg .userReset => some recUserReset
  | .msg .linkCleanupFailed => some (recLinkCleanupFailed P)
  | .msg .linkRecordResponse => some (recLinkRecordResponse P)
  | .msg .linkCleanupStatus => some (recLinkCleanupStatus P)
  | .msg .databaseRecordFound => some (recDatabaseRecordFound P)
  | .rsp .getInfo => some (recGetInfo P)
  | .rsp .linkCommandEcho => some (recLinkCommandEcho P)
  | .rsp .x10Sent => recX10Sent len P
  | .rsp .linkStart => some (recLinkStart P)
  | .rsp .linkCancel => some (recLinkCancel P)
  | .rsp .categorySet => some (recCategorySet P)
  | .rsp .reset => some (recReset P)
  | .rsp .ackByteSet => some (recAckByteSet P)
  | .rsp .firstLinkRecord => some (recFirstLinkRecord P)
  | .rsp .nextLinkRecord => some (recNextLinkRecord P)
  | .rsp .configSet => some (recConfigSet P)
  | .rsp .senderLinkRecord => some (recSenderLinkRecord P)
  | .rsp .ledOn => some (recLedOn P)
  | .rsp .ledOff => some (recLedOff P)
  | .rsp .linkRecordUpdate => some (recLinkRecordUpdate P)
  | .rsp .nakByteSet => some (recNakByteSet P)
  | .rsp .ackTwoBytesSet => some (recAckTwoBytesSet P)
  | .rsp .sleep => some (recSleep P)
  | .rsp .configGet => some (recConfigGet P)
  | .rsp (.extension layout) => some (recExtension layout op P)

/-- `REC(m, op, P)` (R130, R162); the UNSUPPORTED record for an opcode the table maps to UNSUPPORTED (R141). -/
def recordOf (p : Params) (m : Mode) (op : Byte) (P : Payload) : Option Record :=
  match lookup p m op with
  | .entry len k => recKind p k op len P
  | .unsupported => some (.unsupported (opcode := op))
  | .none => none

/-- `VALID(m, op, P)`, the validity check (40_sync.md R100): true at length 0, for every kind (R96). DESIGN CHOICE (log
entry 24), safe: for an X10_SENT entry of length 1 or 2, which R7 allows, the check reads positions beyond the frame, which
`payloadOf` makes free values. -/
def valid (p : Params) (m : Mode) (op : Byte) (P : Payload) : Bool :=
  match lookup p m op with
  | .entry _ (.msg .x10Received) => (x10Dec (P 0) (P 1) (P 2)).isSome
  | .entry _ (.msg .linkComplete) => (linkRoleOf p (P 0)).isSome
  | .entry _ (.msg .buttonEvent) => (buttonOf p (P 0)).isSome
  | .entry len (.rsp .x10Sent) => (x10SentMessage len P).isSome
  | _ => true

end Sys2Proof
end

