-- ==== Sys2Proof/Machine/State.lean ====
section
/-! DEFINITION. The state of the FSD: its registers (10_state.md R26 to R31, and no other, R32), the constants of the
instance (R33), the environment (20_memory.md R62), and the reasons a model step can stop. -/

namespace Sys2Proof.Machine

/-- `ST`, the scan phase: exactly five values (10_state.md R26). The three other encodings are unreachable and the
type does not have them. -/
inductive Phase where
  | hunt
  | opc
  | pay
  | out
  | eos
deriving DecidableEq, Repr

/-- The input pins on one rising edge of `clk` (10_state.md R20). -/
structure Edge where
  rst      : Bool
  mode     : Mode
  inValid  : Bool
  inData   : Byte
  inErr    : Bool
  outReady : Bool
deriving DecidableEq, Repr

/-- The state. -/
structure State where
  /-- `ST` (R26). -/
  st     : Phase
  /-- `MODE_L` (R27). -/
  modeL  : Mode
  /-- `OPC_R` (R28). -/
  opcR   : Byte
  /-- `LEN_R` (R29). -/
  lenR   : Len
  /-- `CNT` (R30). -/
  cnt    : Len
  /-- `BUF[0..19]` (R31). -/
  buf    : Vector Byte 20
  /-- The constants of the instance (R33): no step writes them. Log entry 5. -/
  params : Params
  /-- The environment: the pins on the coming edges, the next one first (R62). Log entry 2. -/
  inputs : List Edge
  /-- The environment: the records handed over so far, oldest first (20_memory.md R45, R57). Log entry 14. -/
  sink   : List Record
  /-- The model's own: how many reset edges have drawn unspecified register values. Log entry 4. -/
  draws  : Nat
deriving DecidableEq, Repr

/-- Why a step can fault. -/
inductive Fault where
  /-- Raised by a payload edge with `CNT` outside 0..19. Safe: 40_sync.md R98 says it cannot happen, and the invariant of
  10_state.md R35 excludes it. -/
  | bufferIndex
deriving DecidableEq, Repr

/-- Why a step can refuse. -/
inductive Refusal where
  /-- Raised by an arm of `exec` whose instruction has no meaning yet. Safe. No arm does. -/
  | notModelled (mnemonic : String)
  /-- Raised by `step` at a parameter set that breaks 00_scope.md R7: "A model must refuse a parameter set that breaks any
  of these checks". Safe. -/
  | illFormedParams
  /-- Raised by `exec` where it is given an instruction that the byte of this edge cannot be: the state is not at the
  row's position. Safe: `step` runs only what it decoded at the state's own position. Log entry 13. -/
  | notAtPosition
deriving DecidableEq, Repr

/-- The machine right after reset (10_state.md R34, 70_reset_and_hazards.md R231): `ST` is HUNT. DESIGN CHOICE (log
entry 3), unsafe: the spec gives the other registers no value, and they hold zeros here. The environment has brought
nothing yet. -/
def State.reset : State where
  st     := .hunt
  modeL  := .msg
  opcR   := 0x00
  lenR   := 0
  cnt    := 0
  buf    := Vector.replicate 20 0x00
  params := defaultParams
  inputs := []
  sink   := []
  draws  := 0

end Sys2Proof.Machine
end

