-- ==== Sys2Proof/Machine/Ports.lean ====
section
/-! DEFINITION. The output ports: combinational functions of the registers (10_state.md R20, R23, R25; 30_encoding.md
R70), and the port encodings of the registers (R26, D36). -/

namespace Sys2Proof.Machine

/-- The 3-bit encoding of `ST` (10_state.md R26). -/
def Phase.code (p : Phase) : BitVec 3 :=
  match p with
  | .hunt => 0b000
  | .opc => 0b001
  | .pay => 0b010
  | .out => 0b011
  | .eos => 0b100

/-- The 1-bit encoding of `mode` and `MODE_L` (10_state.md R20). -/
def modeBit (m : Mode) : BitVec 1 :=
  match m with
  | .msg => 0
  | .rsp => 1

/-- `in_ready = (ST ∈ {HUNT, OPC, PAY})` (R25). -/
def State.inReady (s : State) : Bool := s.st == .hunt || s.st == .opc || s.st == .pay

/-- `out_valid = (ST = OUT)` (R25). -/
def State.outValid (s : State) : Bool := s.st == .out

/-- `eos = (ST = EOS)` (R25). -/
def State.eos (s : State) : Bool := s.st == .eos

/-- `out_unsup = (MODE_L = 1 ∧ OPC_R = 0x62)` (R25). -/
def State.outUnsup (s : State) : Bool := s.modeL == .rsp && s.opcR == 0x62

/-- Bytes side by side, the first in bits 7..0. -/
def packBytes : List Byte → BitVec 160
  | [] => 0
  | b :: bs => (packBytes bs <<< 8) ||| b.setWidth 160

/-- `out_payload[8i+7:8i] = BUF[i]` (R25). -/
def State.outPayload (s : State) : BitVec 160 := packBytes s.buf.toList

/-- The payload of the frame in the buffer, `P[0..LEN_R-1]`. -/
def State.payload (s : State) : Payload := payloadOf s.opcR s.buf s.lenR

/-- The kind of `LOOKUP(MODE_L, OPC_R)`. -/
def State.kind (s : State) : Option Kind := lookupKind s.params s.modeL s.opcR

/-- `KIND(out_mode, out_opcode, out_unsup)` (30_encoding.md R70): `none` stands for UNSUPPORTED. -/
def State.outKind (s : State) : Option Kind := if s.outUnsup then none else s.kind

/-- `out_fields`: the decoded record, where one is presented (R20, R130, R162, 60_exceptions.md R213). -/
def State.record (s : State) : Option Record :=
  if s.outValid then
    if s.outUnsup then some (.unsupported (opcode := s.opcR))
    else recordOf s.params s.modeL s.opcR s.payload
  else none

/-- What the record sink may read (R23). -/
structure Presented where
  mode    : BitVec 1
  opcode  : Byte
  unsup   : Bool
  len     : Len
  payload : BitVec 160
  fields  : Option Record
deriving DecidableEq, Repr

/-- The record outputs while `out_valid = 1`; while `out_valid = 0` they "are unspecified and must not be read" (R23),
and the sink's view holds nothing. DESIGN CHOICE (log entry 16), safe. -/
def State.presented (s : State) : Option Presented :=
  if s.outValid then
    some { mode := modeBit s.modeL, opcode := s.opcR, unsup := s.outUnsup, len := s.lenR,
           payload := s.outPayload, fields := s.record }
  else none

end Sys2Proof.Machine
end

