-- ==== Sys2Proof/Machine/Ops.lean ====
section
/-! DEFINITION. The named operations that the instructions and the other edges share: the pins of an edge, the error
events (60_exceptions.md R210 to R217), accepting an opcode (40_sync.md R93 to R97), taking a payload byte (R98, R99),
the hand-over (R101) and the reset edge (70_reset_and_hazards.md R230). Each takes exactly one edge. -/

namespace Sys2Proof.Machine

/-- The three outcomes over this machine's types. -/
abbrev Out := Host.Outcome State Fault Refusal

/-- An edge on which the environment does nothing. -/
def quietEdge : Edge :=
  { rst := false, mode := .msg, inValid := false, inData := 0x00, inErr := false, outReady := false }

/-- The pins on this edge; after the last listed edge the environment does nothing. DESIGN CHOICE (log entry 2). -/
def State.edge (s : State) : Edge := s.inputs.headD quietEdge

/-- The edge is over: the next listed one comes. -/
def State.tick (s : State) : State := { s with inputs := s.inputs.tail }

/-- `ST <- p`. -/
def State.goto (s : State) (p : Phase) : State := { s with st := p }

/-- The validity check of the frame in the buffer (40_sync.md R100). DESIGN CHOICE (log entry 24), safe: for an X10_SENT
entry of length 1 or 2 free values decide it. -/
def State.frameValid (s : State) : Bool := valid s.params s.modeL s.opcR s.payload

/-- The six error events (60_exceptions.md R210). -/
inductive Event where
  | e1
  | e2
  | e3
  | e4
  | e5 (op : Byte)
  | e6
deriving DecidableEq, Repr

/-- The class of an event (R210). -/
def Event.errorClass (e : Event) : Nat :=
  match e with
  | .e1 => 1
  | .e2 => 1
  | .e3 => 1
  | .e4 => 1
  | .e5 _ => 3
  | .e6 => 2

/-- `Discard()` is `ST <- HUNT` and nothing else (40_sync.md R105). -/
def discard (s : State) : State := s.goto .hunt

/-- Taking an exception: entering an event is one transition (60_exceptions.md R211 to R216). There is no saved state,
no vector and no cause register, and no return (R217). -/
def raise (e : Event) (s : State) : State :=
  match e with
  | .e1 => discard s
  | .e2 => discard s
  | .e3 => discard s
  | .e4 => discard s
  | .e5 op => { s with st := .out, modeL := .rsp, opcR := op, lenR := 0 }
  | .e6 => s.goto .eos

/-- The event of a frame that fails its validity check (R210). -/
def invalidEvent (k : Option Kind) : Event :=
  match k with
  | some (.msg .linkComplete) => .e4
  | some (.msg .x10Received) => .e3
  | some (.rsp .x10Sent) => .e3
  | _ => .e2

/-- The frame decision: present the record, or discard the frame (40_sync.md R96, R99). A frame of length 0 is
always presented, so E2 to E4 arise on the last payload byte only (60_exceptions.md R215). -/
def decideFrame (s : State) : State :=
  if s.frameValid then s.goto .out else raise (invalidEvent s.kind) s

/-- The common part of the opcode edge (R93). -/
def latchOpcode (op : Byte) (s : State) : State :=
  { s with opcR := op, modeL := s.edge.mode, cnt := 0, inputs := s.inputs.tail }

/-- The opcode edge (R93 to R97). -/
def acceptOpcode (op : Byte) (s : State) : State :=
  let t := latchOpcode op s
  match lookup s.params s.edge.mode op with
  | .none => raise .e1 { t with lenR := 0 }
  | .unsupported => raise (.e5 op) t
  | .entry len _ =>
    if len = 0 then decideFrame { t with lenR := 0 }
    else { t with lenR := len, st := .pay }

/-- `BUF[CNT] <- b; CNT <- CNT + 1` (R98). -/
def storeByte (b : Byte) (s : State) : State :=
  { s with buf := s.buf.setIfInBounds s.cnt.toNat b, cnt := s.cnt + 1, inputs := s.inputs.tail }

/-- The payload edge (R98, R99). -/
def takePayload (b : Byte) (s : State) : Out :=
  if s.cnt.toNat < maxPayload then
    let t := storeByte b s
    if t.cnt = t.lenR then .next (decideFrame t) else .next t
  else .fault .bufferIndex

/-- The hand-over edge (R101, 20_memory.md R55 to R57): the sink takes the presented record. -/
def handOver (s : State) : State :=
  { s with st := .hunt, sink := s.sink ++ s.record.toList, inputs := s.inputs.tail }

/-- The reset edge (70_reset_and_hazards.md R230): `ST <- HUNT`; the other registers take unspecified values, which are
free values here (log entry 4). -/
def resetEdge (s : State) : State :=
  { s with
    st := .hunt
    modeL := Config.resetMode s.draws
    opcR := Config.resetOpcode s.draws
    lenR := Config.resetLen s.draws
    cnt := Config.resetCnt s.draws
    buf := Config.resetBuf s.draws
    inputs := s.inputs.tail
    draws := s.draws + 1 }

/-- The payload byte before the one at `CNT`. -/
def State.previous (s : State) : Byte := s.buf.toList.getD (s.cnt.toNat - 1) 0x00

/-- Where the byte of this edge stands in the stream (10_state.md R36); nowhere in OUT and EOS, which take no byte. -/
def State.position (s : State) : Option Position :=
  match s.st with
  | .hunt => some .hunt
  | .opc => some (.opcode s.edge.mode)
  | .pay => s.kind.map fun k => .payload k s.cnt.toNat s.previous
  | .out => none
  | .eos => none

/-- The instruction that the byte of this edge is, if a row claims it. -/
def State.fetch (s : State) : Option Instr :=
  match s.position with
  | some pos => decode s.params pos s.edge.inData
  | none => none

/-- The state takes the opcode byte `op` of a kind-`k` frame on this edge. -/
def State.atOpcode (s : State) (k : Kind) (op : Byte) : Bool :=
  s.st == .opc && lookupKind s.params s.edge.mode op == some k

/-- The state takes a payload byte of a kind-`k` frame on this edge. -/
def State.inPayload (s : State) (k : Kind) : Bool := s.st == .pay && s.kind == some k

/-- A frame row: its opcode edge, or one of its payload edges. -/
def runFrame (k : Kind) (e : FrameEdge) (s : State) : Out :=
  match e with
  | .accept op => if s.atOpcode k op then .next (acceptOpcode op s) else .refused .notAtPosition
  | .payload b => if s.inPayload k then takePayload b s else .refused .notAtPosition

/-- The index of `c1` in the payload being taken, if its kind holds a command pair (44_aux_codecs.md R186). -/
def State.selectorIndex (s : State) : Option Nat :=
  if s.st = .pay then s.kind.bind commandIndex else none

/-- A command row: the edge of `c1`, or the edge of its data byte right after that `c1`. The pair is stored like any
payload bytes; the record's command field is `CMD_DEC` of it (41_message_frames.md R120, 42_response_frames.md R144). -/
def runCommand (c1 : Byte) (e : CmdEdge) (s : State) : Out :=
  match e with
  | .select =>
    if s.selectorIndex = some s.cnt.toNat then takePayload c1 s else .refused .notAtPosition
  | .data c2 =>
    if s.cnt.toNat ≠ 0 ∧ s.selectorIndex = some (s.cnt.toNat - 1) ∧ s.previous = c1 then takePayload c2 s
    else .refused .notAtPosition

/-- A button row: the byte that `BUTTON_TABLE` gives the pair, taken as payload byte 0 of a button event
(41_message_frames.md R124). -/
def runButton (bt : Button × ButtonAction) (s : State) : Out :=
  match buttonByte s.params bt with
  | some b =>
    if s.inPayload (.msg .buttonEvent) ∧ s.cnt = 0 then takePayload b s else .refused .notAtPosition
  | none => .refused .notAtPosition

/-- An X10 flag row: payload byte 1 of a frame that carries an X10 message (43_x10_codec.md R174). -/
def runX10Flag (flag : Byte) (s : State) : Out :=
  if (s.inPayload (.msg .x10Received) ∨ s.inPayload (.rsp .x10Sent)) ∧ s.cnt = 1 then takePayload flag s
  else .refused .notAtPosition

end Sys2Proof.Machine
end

