-- ==== Sys2Proof/Machine/ButtonBytes.lean ====
section
/-! DEFINITION. The button bytes, the one payload byte of `0x54`: 41_message_frames.md R124 and R131. The byte completes the
frame, so the record BUTTON_EVENT of the pair is presented (40_sync.md R99). -/

namespace Sys2Proof.Machine

/-- Button one, tapped (R131). -/
def execBtn1Tapped (s : State) : Out := runButton (.one, .tapped) s

/-- Button one, held (R131). -/
def execBtn1Held (s : State) : Out := runButton (.one, .held) s

/-- Button one, released (R131). -/
def execBtn1Released (s : State) : Out := runButton (.one, .released) s

/-- Button two, tapped (R131). -/
def execBtn2Tapped (s : State) : Out := runButton (.two, .tapped) s

/-- Button two, held (R131). -/
def execBtn2Held (s : State) : Out := runButton (.two, .held) s

/-- Button two, released (R131). -/
def execBtn2Released (s : State) : Out := runButton (.two, .released) s

/-- Button three, tapped (R131). -/
def execBtn3Tapped (s : State) : Out := runButton (.three, .tapped) s

/-- Button three, held (R131). -/
def execBtn3Held (s : State) : Out := runButton (.three, .held) s

/-- Button three, released (R131). -/
def execBtn3Released (s : State) : Out := runButton (.three, .released) s

end Sys2Proof.Machine
end

