-- ==== Sys2Proof/Machine/CommandPairs.lean ====
section
/-! DEFINITION. The command pairs inside the payload of `0x50`, `0x51` and the link-command echo: 44_aux_codecs.md R186 to
R191. A row takes its `c1`, then its data byte `c2`; the record shows `CMD_DEC(c1, c2)`. -/

namespace Sys2Proof.Machine

/-- `0x08`, CancelLinking: `c2` is ignored on decode (R190). -/
def execCmdCancelLinking (e : CmdEdge) (s : State) : Out := runCommand 0x08 e s

/-- `0x09`, BeginLinking(c2) (R190). -/
def execCmdBeginLinking (e : CmdEdge) (s : State) : Out := runCommand 0x09 e s

/-- `0x0A`, BeginUnlinking(c2) (R190). -/
def execCmdBeginUnlinking (e : CmdEdge) (s : State) : Out := runCommand 0x0A e s

/-- `0x10`, IdRequest: `c2` is ignored on decode (R190). -/
def execCmdIdRequest (e : CmdEdge) (s : State) : Out := runCommand 0x10 e s

/-- `0x11`, On(GroupNumber(c2)), `0x00` included (R188). -/
def execCmdOn (e : CmdEdge) (s : State) : Out := runCommand 0x11 e s

/-- `0x12`, FastOn with an optional group (R187). -/
def execCmdFastOn (e : CmdEdge) (s : State) : Out := runCommand 0x12 e s

/-- `0x13`, Off with an optional group (R187). -/
def execCmdOff (e : CmdEdge) (s : State) : Out := runCommand 0x13 e s

/-- `0x14`, FastOff with an optional group (R187). -/
def execCmdFastOff (e : CmdEdge) (s : State) : Out := runCommand 0x14 e s

/-- `0x15`, Bright with an optional group (R187). -/
def execCmdBright (e : CmdEdge) (s : State) : Out := runCommand 0x15 e s

/-- `0x16`, Dim with an optional group (R187). -/
def execCmdDim (e : CmdEdge) (s : State) : Out := runCommand 0x16 e s

/-- `0x17`, Start with a direction (R189). -/
def execCmdStart (e : CmdEdge) (s : State) : Out := runCommand 0x17 e s

/-- `0x18`, Stop: `c2` is ignored on decode (R190). -/
def execCmdStop (e : CmdEdge) (s : State) : Out := runCommand 0x18 e s

/-- `0x19`, StatusRequest: `c2` is ignored on decode (R190). -/
def execCmdStatusRequest (e : CmdEdge) (s : State) : Out := runCommand 0x19 e s

end Sys2Proof.Machine
end

