-- ==== Sys2Proof/Machine/MessageFrames.lean ====
section
/-! DEFINITION. The marker (40_sync.md R92) and the message frames: 41_message_frames.md R120 to R129. Each frame row runs its
opcode edge (R93, R96, R97) and its payload edges (R98, R99); the record its rule builds is presented when the last
payload byte is taken (Machine/RecordBuilders.lean, one builder per kind). -/

namespace Sys2Proof.Machine

/-- MARKER: the byte `0x02` taken in HUNT starts a frame (40_sync.md R92). -/
def execMarker (s : State) : Out :=
  if s.st = .hunt then .next (s.tick.goto .opc) else .refused .notAtPosition

/-- RECEIVED_STD, `0x50` (R120). -/
def execReceivedStd (e : FrameEdge) (s : State) : Out := runFrame (.msg .receivedStd) e s

/-- RECEIVED_EXT, `0x51` (R121). -/
def execReceivedExt (e : FrameEdge) (s : State) : Out := runFrame (.msg .receivedExt) e s

/-- X10_RECEIVED, `0x52` (R122). A parse failure discards the frame (R100). -/
def execX10Received (e : FrameEdge) (s : State) : Out := runFrame (.msg .x10Received) e s

/-- LINK_COMPLETE, `0x53` (R123). A role byte outside the table discards the frame (R100). -/
def execLinkComplete (e : FrameEdge) (s : State) : Out := runFrame (.msg .linkComplete) e s

/-- BUTTON_EVENT, `0x54` (R124). A byte outside the table discards the frame (R100); a byte of the table is a button row. -/
def execButtonEvent (e : FrameEdge) (s : State) : Out := runFrame (.msg .buttonEvent) e s

/-- USER_RESET, `0x55` (R125): no payload, so the opcode edge presents the record (40_sync.md R96). -/
def execUserReset (s : State) : Out := runFrame (.msg .userReset) (.accept 0x55) s

/-- LINK_CLEANUP_FAILED, `0x56` (R126). -/
def execLinkCleanupFailed (e : FrameEdge) (s : State) : Out := runFrame (.msg .linkCleanupFailed) e s

/-- LINK_RECORD_RESPONSE, `0x57` (R127). -/
def execLinkRecordResponse (e : FrameEdge) (s : State) : Out := runFrame (.msg .linkRecordResponse) e s

/-- LINK_CLEANUP_STATUS, `0x58` (R128). -/
def execLinkCleanupStatus (e : FrameEdge) (s : State) : Out := runFrame (.msg .linkCleanupStatus) e s

/-- DATABASE_RECORD_FOUND, `0x59` (R129). -/
def execDatabaseRecordFound (e : FrameEdge) (s : State) : Out := runFrame (.msg .databaseRecordFound) e s

end Sys2Proof.Machine
end

