-- ==== Sys2Proof/Machine/ResponseFrames.lean ====
section
/-! DEFINITION. The response frames: 42_response_frames.md R141 to R161. As the message frames; the opcode and the length come from
the instance's `RESP_TABLE` (30_encoding.md R69). -/

namespace Sys2Proof.Machine

/-- GET_INFO, `0x60` (R143). -/
def execGetInfo (e : FrameEdge) (s : State) : Out := runFrame (.rsp .getInfo) e s

/-- LINK_COMMAND_ECHO, `0x61` (R144). -/
def execLinkCommandEcho (e : FrameEdge) (s : State) : Out := runFrame (.rsp .linkCommandEcho) e s

/-- UNSUPPORTED, `0x62` (R141): the opcode edge raises event E5 and takes no payload byte (40_sync.md R95,
60_exceptions.md R213). -/
def execUnsupported (s : State) : Out :=
  if s.st = .opc ∧ lookup s.params s.edge.mode 0x62 = .unsupported then .next (acceptOpcode 0x62 s)
  else .refused .notAtPosition

/-- X10_SENT, `0x63` (R145). A parse failure discards the frame (R100). -/
def execX10Sent (e : FrameEdge) (s : State) : Out := runFrame (.rsp .x10Sent) e s

/-- LINK_START, `0x64` (R146). -/
def execLinkStart (e : FrameEdge) (s : State) : Out := runFrame (.rsp .linkStart) e s

/-- LINK_CANCEL, `0x65` (R147). -/
def execLinkCancel (e : FrameEdge) (s : State) : Out := runFrame (.rsp .linkCancel) e s

/-- CATEGORY_SET, `0x66` (R148). -/
def execCategorySet (e : FrameEdge) (s : State) : Out := runFrame (.rsp .categorySet) e s

/-- RESET, `0x67` (R149). -/
def execReset (e : FrameEdge) (s : State) : Out := runFrame (.rsp .reset) e s

/-- ACK_BYTE_SET, `0x68` (R150). -/
def execAckByteSet (e : FrameEdge) (s : State) : Out := runFrame (.rsp .ackByteSet) e s

/-- FIRST_LINK_RECORD, `0x69` (R151). -/
def execFirstLinkRecord (e : FrameEdge) (s : State) : Out := runFrame (.rsp .firstLinkRecord) e s

/-- NEXT_LINK_RECORD, `0x6A` (R152). -/
def execNextLinkRecord (e : FrameEdge) (s : State) : Out := runFrame (.rsp .nextLinkRecord) e s

/-- CONFIG_SET, `0x6B` (R153). -/
def execConfigSet (e : FrameEdge) (s : State) : Out := runFrame (.rsp .configSet) e s

/-- SENDER_LINK_RECORD, `0x6C` (R154). -/
def execSenderLinkRecord (e : FrameEdge) (s : State) : Out := runFrame (.rsp .senderLinkRecord) e s

/-- LED_ON, `0x6D` (R155). -/
def execLedOn (e : FrameEdge) (s : State) : Out := runFrame (.rsp .ledOn) e s

/-- LED_OFF, `0x6E` (R156). -/
def execLedOff (e : FrameEdge) (s : State) : Out := runFrame (.rsp .ledOff) e s

/-- LINK_RECORD_UPDATE, `0x6F` (R157). -/
def execLinkRecordUpdate (e : FrameEdge) (s : State) : Out := runFrame (.rsp .linkRecordUpdate) e s

/-- NAK_BYTE_SET, `0x70` (R158). -/
def execNakByteSet (e : FrameEdge) (s : State) : Out := runFrame (.rsp .nakByteSet) e s

/-- ACK_TWO_BYTES_SET, `0x71` (R159). -/
def execAckTwoBytesSet (e : FrameEdge) (s : State) : Out := runFrame (.rsp .ackTwoBytesSet) e s

/-- SLEEP, `0x72` (R160). -/
def execSleep (e : FrameEdge) (s : State) : Out := runFrame (.rsp .sleep) e s

/-- CONFIG_GET, `0x73` (R161). -/
def execConfigGet (e : FrameEdge) (s : State) : Out := runFrame (.rsp .configGet) e s

end Sys2Proof.Machine
end

