-- ==== Sys2Proof/Machine/X10Flags.lean ====
section
/-! DEFINITION. The X10 flag bytes, payload byte 1 of `0x52` and of the X10 echo: 43_x10_codec.md R173 and R174. The flag is
stored; it selects how the completed message is read (`X10_DEC`). -/

namespace Sys2Proof.Machine

/-- `0x00`: the selector is a unit code (R174). -/
def execX10Unit (s : State) : Out := runX10Flag 0x00 s

/-- `0x80`: the selector is a command; at `X10_CMD_HOLE` the frame is discarded when it completes (R174, R176). -/
def execX10Command (s : State) : Out := runX10Flag 0x80 s

end Sys2Proof.Machine
end

