-- ==== Sys2Proof/Machine/Dispatch.lean ====
section
/-! DEFINITION. The dispatch: one arm per row of spec/opcode_table.json. -/

namespace Sys2Proof.Machine

def exec (i : Instr) (s : State) : Host.Outcome State Fault Refusal :=
  match i with
  | .marker => Sys2Proof.Machine.execMarker s
  | .receivedStd e => Sys2Proof.Machine.execReceivedStd e s
  | .receivedExt e => Sys2Proof.Machine.execReceivedExt e s
  | .x10Received e => Sys2Proof.Machine.execX10Received e s
  | .linkComplete e => Sys2Proof.Machine.execLinkComplete e s
  | .buttonEvent e => Sys2Proof.Machine.execButtonEvent e s
  | .userReset => Sys2Proof.Machine.execUserReset s
  | .linkCleanupFailed e => Sys2Proof.Machine.execLinkCleanupFailed e s
  | .linkRecordResponse e => Sys2Proof.Machine.execLinkRecordResponse e s
  | .linkCleanupStatus e => Sys2Proof.Machine.execLinkCleanupStatus e s
  | .databaseRecordFound e => Sys2Proof.Machine.execDatabaseRecordFound e s
  | .getInfo e => Sys2Proof.Machine.execGetInfo e s
  | .linkCommandEcho e => Sys2Proof.Machine.execLinkCommandEcho e s
  | .unsupported => Sys2Proof.Machine.execUnsupported s
  | .x10Sent e => Sys2Proof.Machine.execX10Sent e s
  | .linkStart e => Sys2Proof.Machine.execLinkStart e s
  | .linkCancel e => Sys2Proof.Machine.execLinkCancel e s
  | .categorySet e => Sys2Proof.Machine.execCategorySet e s
  | .reset e => Sys2Proof.Machine.execReset e s
  | .ackByteSet e => Sys2Proof.Machine.execAckByteSet e s
  | .firstLinkRecord e => Sys2Proof.Machine.execFirstLinkRecord e s
  | .nextLinkRecord e => Sys2Proof.Machine.execNextLinkRecord e s
  | .configSet e => Sys2Proof.Machine.execConfigSet e s
  | .senderLinkRecord e => Sys2Proof.Machine.execSenderLinkRecord e s
  | .ledOn e => Sys2Proof.Machine.execLedOn e s
  | .ledOff e => Sys2Proof.Machine.execLedOff e s
  | .linkRecordUpdate e => Sys2Proof.Machine.execLinkRecordUpdate e s
  | .nakByteSet e => Sys2Proof.Machine.execNakByteSet e s
  | .ackTwoBytesSet e => Sys2Proof.Machine.execAckTwoBytesSet e s
  | .sleep e => Sys2Proof.Machine.execSleep e s
  | .configGet e => Sys2Proof.Machine.execConfigGet e s
  | .cmdCancelLinking e => Sys2Proof.Machine.execCmdCancelLinking e s
  | .cmdBeginLinking e => Sys2Proof.Machine.execCmdBeginLinking e s
  | .cmdBeginUnlinking e => Sys2Proof.Machine.execCmdBeginUnlinking e s
  | .cmdIdRequest e => Sys2Proof.Machine.execCmdIdRequest e s
  | .cmdOn e => Sys2Proof.Machine.execCmdOn e s
  | .cmdFastOn e => Sys2Proof.Machine.execCmdFastOn e s
  | .cmdOff e => Sys2Proof.Machine.execCmdOff e s
  | .cmdFastOff e => Sys2Proof.Machine.execCmdFastOff e s
  | .cmdBright e => Sys2Proof.Machine.execCmdBright e s
  | .cmdDim e => Sys2Proof.Machine.execCmdDim e s
  | .cmdStart e => Sys2Proof.Machine.execCmdStart e s
  | .cmdStop e => Sys2Proof.Machine.execCmdStop e s
  | .cmdStatusRequest e => Sys2Proof.Machine.execCmdStatusRequest e s
  | .btn1Tapped => Sys2Proof.Machine.execBtn1Tapped s
  | .btn1Held => Sys2Proof.Machine.execBtn1Held s
  | .btn1Released => Sys2Proof.Machine.execBtn1Released s
  | .btn2Tapped => Sys2Proof.Machine.execBtn2Tapped s
  | .btn2Held => Sys2Proof.Machine.execBtn2Held s
  | .btn2Released => Sys2Proof.Machine.execBtn2Released s
  | .btn3Tapped => Sys2Proof.Machine.execBtn3Tapped s
  | .btn3Held => Sys2Proof.Machine.execBtn3Held s
  | .btn3Released => Sys2Proof.Machine.execBtn3Released s
  | .x10Unit => Sys2Proof.Machine.execX10Unit s
  | .x10Command => Sys2Proof.Machine.execX10Command s

end Sys2Proof.Machine
end

