-- ==== Sys2Proof/Machine/Load.lean ====
section
/-! DEFINITION. Placing one instruction where the next edge takes it: the position of its row, and the bytes of its word
offered on the coming edges. Log entry 2 says what this stands for in the hardware (the byte source offering bytes). -/

namespace Sys2Proof.Machine

/-- The table, opcode and length of a kind's frames, where a table has them. -/
def kindEntry (p : Params) (k : Kind) : Option (Mode × Byte × Len) :=
  match k with
  | .msg mk => (msgTable.find? fun r => r.2.2 == mk).map fun r => (.msg, r.1, r.2.1)
  | .rsp rk =>
    p.respTable.findSome? fun r =>
      match r.2 with
      | .entry len rk' => if rk' = rk then some (.rsp, r.1, len) else none
      | .unsupported => none

/-- The mode input that a position's bytes come with. -/
def positionMode (p : Params) (pos : Position) : Mode :=
  match pos with
  | .hunt => .msg
  | .opcode m => m
  | .payload k _ _ => ((kindEntry p k).map (·.1)).getD .msg

/-- The registers that put the next byte at a position. -/
def loadPosition (pos : Position) (s : State) : State :=
  match pos with
  | .hunt => s.goto .hunt
  | .opcode _ => s.goto .opc
  | .payload k i prev =>
    match kindEntry s.params k with
    | some (m, op, len) =>
      { s with st := .pay, modeL := m, opcR := op, lenR := len, cnt := BitVec.ofNat 5 i,
               buf := if i = 0 then s.buf else s.buf.setIfInBounds (i - 1) prev }
    | none => s

/-- An edge on which the source offers `b` and the sink is ready. -/
def offer (m : Mode) (b : Byte) : Edge :=
  { rst := false, mode := m, inValid := true, inData := b, inErr := false, outReady := true }

/-- How many bytes the row at a position has from that byte on: an opcode and its payload, a command and its data byte,
or the one byte. -/
def rowLength (p : Params) (pos : Position) (b : Byte) : Nat :=
  match pos with
  | .hunt => 1
  | .opcode m =>
    match lookup p m b with
    | .entry len _ => 1 + len.toNat
    | .unsupported => 1
    | .none => 1
  | .payload k i _ => if commandIndex k = some i then 2 else 1

/-- The bytes of a table word, filled up with zero bytes to the length of its row. -/
def loadBytes (p : Params) (pos : Position) (b : Byte) (nbits w : Nat) : List Byte :=
  let bs := wordBytes nbits w
  bs ++ List.replicate (rowLength p pos b - bs.length) 0x00

/-- The state in which the coming edge takes the first byte of the word at its row's position. -/
def loadWord (s : State) (nbits w : Nat) : State :=
  let b := BitVec.ofNat 8 w
  match rowPosition b with
  | some pos =>
    let t := loadPosition pos s
    { t with inputs := (loadBytes s.params pos b nbits w).map (offer (positionMode s.params pos)) ++ s.inputs }
  | none => s

end Sys2Proof.Machine
end

