-- ==== Sys2Proof/Machine/Sync.lean ====
section
/-! DEFINITION. The synchroniser: one rising edge, by the priority of 40_sync.md R90. What a row's byte does is the
argument `run`; the edges that run no row stand here (R91, R94 for an opcode no table lists, R101 to R104, the frames of
extension entries, 42_response_frames.md R162). -/

namespace Sys2Proof.Machine

/-- A byte that no row claims: noise in HUNT (40_sync.md R91); an opcode the table does not list (R94) or lists as an
extension (R96, R97); a payload byte of an extension frame (R98, R99). -/
def otherByte (s : State) : Out :=
  match s.st with
  | .hunt => .next s.tick
  | .opc => .next (acceptOpcode s.edge.inData s)
  | .pay => takePayload s.edge.inData s
  | .out => .next s.tick
  | .eos => .next s.tick

/-- A byte is transferred (10_state.md R21): the row it is runs, or the rule of a byte that no row claims. -/
def takeByte (run : Instr → State → Out) (s : State) : Out :=
  match s.fetch with
  | some i => run i s
  | none => otherByte s

/-- The record is presented: handed over, or held (40_sync.md R101). -/
def presentEdge (s : State) : Out :=
  if s.edge.outReady then .next (handOver s) else .next s.tick

/-- A read phase (HUNT, OPC, PAY): source failure before a byte, a byte before idle (R90 (2), (3), (6); R102, R104). -/
def readEdge (run : Instr → State → Out) (s : State) : Out :=
  if s.edge.inErr then .next (raise .e6 s.tick)
  else if s.edge.inValid then takeByte run s
  else .next s.tick

/-- One rising edge (R90): reset first (70 R230), then the phase's rule; EOS changes nothing (R103). -/
def clockEdge (run : Instr → State → Out) (s : State) : Out :=
  if s.edge.rst then .next (resetEdge s)
  else
    match s.st with
    | .hunt => readEdge run s
    | .opc => readEdge run s
    | .pay => readEdge run s
    | .out => presentEdge s
    | .eos => .next s.tick

/-- A step of an instance: a parameter set that breaks 00_scope.md R7 is refused. -/
def instanceEdge (run : Instr → State → Out) (s : State) : Out :=
  if s.params.ok then clockEdge run s else .refused .illFormedParams

end Sys2Proof.Machine
end

