-- ==== Sys2Proof/Machine/Feed.lean ====
section
/-! DEFINITION. The transaction level of 40_sync.md R106: `feed` processes one transferred byte with an always-ready sink,
`fail` ends the stream; and the terms in which a run of edges is compared with it. -/

namespace Sys2Proof.Machine

/-- The state `S` of R106; its phase is never OUT. -/
structure Scan where
  phase : Phase
  modeL : Mode
  opc   : Byte
  len   : Len
  cnt   : Len
  buf   : Vector Byte 20
deriving DecidableEq, Repr

/-- `feed(S, b, m)` (R106). The check of an X10_SENT entry of length 1 or 2 is the model's choice (log entry 24). -/
def feed (p : Params) (S : Scan) (b : Byte) (m : Mode) : Scan × Option Record :=
  match S.phase with
  | .hunt => (if b = markerByte then { S with phase := .opc } else S, none)
  | .opc =>
    match lookup p m b with
    | .none => ({ S with phase := .hunt }, none)
    | .unsupported => ({ S with phase := .hunt }, some (.unsupported (opcode := b)))
    | .entry len _ =>
      if len = 0 then ({ S with phase := .hunt }, recordOf p m b (payloadOf b S.buf 0))
      else ({ S with phase := .pay, modeL := m, opc := b, len := len, cnt := 0 }, none)
  | .pay =>
    let buf' := S.buf.setIfInBounds S.cnt.toNat b
    if S.cnt.toNat + 1 < S.len.toNat then ({ S with buf := buf', cnt := S.cnt + 1 }, none)
    else if valid p S.modeL S.opc (payloadOf S.opc buf' S.len) then
      ({ S with phase := .hunt, buf := buf' }, recordOf p S.modeL S.opc (payloadOf S.opc buf' S.len))
    else ({ S with phase := .hunt, buf := buf' }, none)
  | .out => (S, none)
  | .eos => (S, none)

/-- `fail(S)` (R106). -/
def Scan.fail (S : Scan) : Scan := { S with phase := .eos }

/-- `feed` over a sequence of transferred bytes, each with the `mode` input of its edge, and the records in order. -/
def feedAll (p : Params) (S : Scan) : List (Byte × Mode) → Scan × List Record
  | [] => (S, [])
  | (b, m) :: l =>
    let r := feed p S b m
    let rest := feedAll p r.1 l
    (rest.1, r.2.toList ++ rest.2)

/-- A byte is transferred on this edge (10_state.md R21). -/
def State.transfers (s : State) : Bool :=
  !s.edge.rst && s.inReady && !s.edge.inErr && s.edge.inValid

/-- A record is handed over on this edge (10_state.md R23). -/
def State.handsOver (s : State) : Bool := !s.edge.rst && s.outValid && s.edge.outReady

/-- The bytes transferred in the next `n` edges, each with the `mode` input of its edge. -/
def transferred : Nat → State → List (Byte × Mode)
  | 0, _ => []
  | n + 1, s =>
    (if s.transfers then [(s.edge.inData, s.edge.mode)] else []) ++
      match step s with
      | .next t => transferred n t
      | .fault _ => []
      | .refused _ => []

/-- The records that have left or are presented: with an always-ready sink, those the sink would have. -/
def State.emitted (s : State) : List Record := s.sink ++ s.record.toList

/-- A cycle-level state and a transaction-level state agree: the phase (a presented record has already left at the
transaction level), the buffer, and, while a payload is taken, the frame's registers. The registers that no rule reads
before writing them are not compared (10_state.md R34). -/
def Agrees (s : State) (S : Scan) : Prop :=
  S.phase = (if s.st = .out then .hunt else s.st) ∧ S.buf = s.buf ∧
  (s.st = .pay → S.modeL = s.modeL ∧ S.opc = s.opcR ∧ S.len = s.lenR ∧ S.cnt = s.cnt)

end Sys2Proof.Machine
end

