-- ==== Sys2Proof/Safety.lean ====
section
/-! DEFINITION. What the statements say safe runs are: the invariant of every reachable state (10_state.md R35), the state
a payload edge leaves (40_sync.md R98, R99), and the rows of spec/opcode_table.json as lists, so that one statement can
name every row of a shape. -/

namespace Sys2Proof.Machine

/-- The length that the table gives the opcode, where it has an entry. -/
def entryLength (p : Params) (m : Mode) (op : Byte) : Option Len :=
  match lookup p m op with
  | .entry len _ => some len
  | .unsupported => none
  | .none => none

/-- The invariants of 10_state.md R35, items 1, 2 and 4; and that `LEN_R` is the length the table gives the opcode of the
frame in progress (R29). Item 3 is about the past of a run and item 5 about a step; they are statements of their own. -/
abbrev Inv (s : State) : Prop :=
  (s.st = .pay → 1 ≤ s.lenR.toNat ∧ s.lenR.toNat ≤ 20 ∧ s.cnt.toNat < s.lenR.toNat) ∧
  (s.st = .out → s.cnt = s.lenR) ∧
  (s.st = .out → s.outUnsup = true → s.lenR = 0) ∧
  (s.st = .out → s.outUnsup = false → s.frameValid = true) ∧
  (s.st = .pay → entryLength s.params s.modeL s.opcR = some s.lenR) ∧
  (s.st = .out → s.outUnsup = false → entryLength s.params s.modeL s.opcR = some s.lenR)

/-- Two states agree on everything that a rule reads (10_state.md R31, R34): all but the registers whose value is stale. In
PAY the frame's registers and the bytes taken so far are read, in OUT those of the whole frame, elsewhere none. -/
def SameLive (s u : State) : Prop :=
  s.st = u.st ∧ s.params = u.params ∧ s.inputs = u.inputs ∧ s.sink = u.sink ∧ s.draws = u.draws ∧
  (s.st = .pay → s.modeL = u.modeL ∧ s.opcR = u.opcR ∧ s.lenR = u.lenR ∧ s.cnt = u.cnt ∧
    s.buf.toList.take s.cnt.toNat = u.buf.toList.take s.cnt.toNat) ∧
  (s.st = .out → s.modeL = u.modeL ∧ s.opcR = u.opcR ∧ s.lenR = u.lenR ∧
    s.buf.toList.take s.lenR.toNat = u.buf.toList.take s.lenR.toNat)

/-- The step goes on. -/
def Continues (o : Out) : Prop := ∃ t, o = .next t

/-- The state after a payload edge that takes `b` (40_sync.md R98, R99): the byte stored, the counter advanced, the edge
gone, and on the last byte the frame presented or discarded. Every other field is unchanged. -/
def afterPayload (b : Byte) (s : State) : State :=
  { s with
    st := if s.cnt + 1 = s.lenR then
            (if valid s.params s.modeL s.opcR
                 (payloadOf s.opcR (s.buf.setIfInBounds s.cnt.toNat b) s.lenR)
             then .out else .hunt)
          else s.st
    buf := s.buf.setIfInBounds s.cnt.toNat b
    cnt := s.cnt + 1
    inputs := s.inputs.tail }

/-- The whole step as 40_sync.md R90 writes it, arm by arm, without decoding: what the decoded rows must amount to.
The check of an X10_SENT entry of length 1 or 2 is the model's choice (log entry 24). -/
def referenceEdge (s : State) : State :=
  let e := s.edge
  let u : State := { s with inputs := s.inputs.tail }
  if e.rst = true then resetEdge s
  else if (s.st = .hunt ∨ s.st = .opc ∨ s.st = .pay) ∧ e.inErr = true then { u with st := .eos }
  else if s.st = .hunt ∧ e.inValid = true then { u with st := if e.inData = 0x02 then .opc else .hunt }
  else if s.st = .opc ∧ e.inValid = true then
    let v : State := { u with opcR := e.inData, modeL := e.mode, cnt := 0 }
    match lookup s.params e.mode e.inData with
    | .none => { v with lenR := 0, st := .hunt }
    | .unsupported => { v with lenR := 0, st := .out }
    | .entry len _ =>
      if len = 0 then { v with lenR := 0, st := .out }
      else { v with lenR := len, st := .pay }
  else if s.st = .pay ∧ e.inValid = true then afterPayload e.inData s
  else if s.st = .out ∧ e.outReady = true then { u with st := .hunt, sink := s.sink ++ s.record.toList }
  else u

/-- The phase in which a frame row's byte is taken (10_state.md R36). -/
def edgePhase (e : FrameEdge) : Phase :=
  match e with
  | .accept _ => .opc
  | .payload _ => .pay

/-- The phase in which the byte of an edge of a row is taken (R36). -/
def rowPhase (i : Instr) : Phase :=
  match i with
  | .marker => .hunt
  | .receivedStd e => edgePhase e
  | .receivedExt e => edgePhase e
  | .x10Received e => edgePhase e
  | .linkComplete e => edgePhase e
  | .buttonEvent e => edgePhase e
  | .userReset => .opc
  | .linkCleanupFailed e => edgePhase e
  | .linkRecordResponse e => edgePhase e
  | .linkCleanupStatus e => edgePhase e
  | .databaseRecordFound e => edgePhase e
  | .getInfo e => edgePhase e
  | .linkCommandEcho e => edgePhase e
  | .unsupported => .opc
  | .x10Sent e => edgePhase e
  | .linkStart e => edgePhase e
  | .linkCancel e => edgePhase e
  | .categorySet e => edgePhase e
  | .reset e => edgePhase e
  | .ackByteSet e => edgePhase e
  | .firstLinkRecord e => edgePhase e
  | .nextLinkRecord e => edgePhase e
  | .configSet e => edgePhase e
  | .senderLinkRecord e => edgePhase e
  | .ledOn e => edgePhase e
  | .ledOff e => edgePhase e
  | .linkRecordUpdate e => edgePhase e
  | .nakByteSet e => edgePhase e
  | .ackTwoBytesSet e => edgePhase e
  | .sleep e => edgePhase e
  | .configGet e => edgePhase e
  | .cmdCancelLinking _ => .pay
  | .cmdBeginLinking _ => .pay
  | .cmdBeginUnlinking _ => .pay
  | .cmdIdRequest _ => .pay
  | .cmdOn _ => .pay
  | .cmdFastOn _ => .pay
  | .cmdOff _ => .pay
  | .cmdFastOff _ => .pay
  | .cmdBright _ => .pay
  | .cmdDim _ => .pay
  | .cmdStart _ => .pay
  | .cmdStop _ => .pay
  | .cmdStatusRequest _ => .pay
  | .btn1Tapped => .pay
  | .btn1Held => .pay
  | .btn1Released => .pay
  | .btn2Tapped => .pay
  | .btn2Held => .pay
  | .btn2Released => .pay
  | .btn3Tapped => .pay
  | .btn3Held => .pay
  | .btn3Released => .pay
  | .x10Unit => .pay
  | .x10Command => .pay

/-- The phase of a position. -/
def positionPhase (pos : Position) : Phase :=
  match pos with
  | .hunt => .hunt
  | .opcode _ => .opc
  | .payload _ _ _ => .pay

/-- The message frames that have a payload: constructor, opcode, length, kind (30_encoding.md R68). -/
def msgRows : List ((FrameEdge → Instr) × Byte × Len × MsgKind) :=
  [(.receivedStd, 0x50, 6, .receivedStd),
   (.receivedExt, 0x51, 20, .receivedExt),
   (.x10Received, 0x52, 3, .x10Received),
   (.linkComplete, 0x53, 8, .linkComplete),
   (.buttonEvent, 0x54, 1, .buttonEvent),
   (.linkCleanupFailed, 0x56, 5, .linkCleanupFailed),
   (.linkRecordResponse, 0x57, 8, .linkRecordResponse),
   (.linkCleanupStatus, 0x58, 1, .linkCleanupStatus),
   (.databaseRecordFound, 0x59, 10, .databaseRecordFound)]

/-- The response frames: constructor, default opcode, default length, kind (42_response_frames.md R140). -/
def rspRows : List ((FrameEdge → Instr) × Byte × Len × RspKind) :=
  [(.getInfo, 0x60, 7, .getInfo),
   (.linkCommandEcho, 0x61, 4, .linkCommandEcho),
   (.x10Sent, 0x63, 3, .x10Sent),
   (.linkStart, 0x64, 3, .linkStart),
   (.linkCancel, 0x65, 1, .linkCancel),
   (.categorySet, 0x66, 4, .categorySet),
   (.reset, 0x67, 1, .reset),
   (.ackByteSet, 0x68, 2, .ackByteSet),
   (.firstLinkRecord, 0x69, 1, .firstLinkRecord),
   (.nextLinkRecord, 0x6A, 1, .nextLinkRecord),
   (.configSet, 0x6B, 2, .configSet),
   (.senderLinkRecord, 0x6C, 1, .senderLinkRecord),
   (.ledOn, 0x6D, 1, .ledOn),
   (.ledOff, 0x6E, 1, .ledOff),
   (.linkRecordUpdate, 0x6F, 10, .linkRecordUpdate),
   (.nakByteSet, 0x70, 2, .nakByteSet),
   (.ackTwoBytesSet, 0x71, 3, .ackTwoBytesSet),
   (.sleep, 0x72, 3, .sleep),
   (.configGet, 0x73, 4, .configGet)]

/-- The command rows: constructor, `c1`, and the command that `CMD_DEC(c1, c2)` is (44_aux_codecs.md R186). -/
def cmdRows : List ((CmdEdge → Instr) × Byte × (Byte → Command)) :=
  [(.cmdCancelLinking, 0x08, fun _ => .cancelLinking),
   (.cmdBeginLinking, 0x09, fun c2 => .beginLinking c2),
   (.cmdBeginUnlinking, 0x0A, fun c2 => .beginUnlinking c2),
   (.cmdIdRequest, 0x10, fun _ => .idRequest),
   (.cmdOn, 0x11, fun c2 => .on (.group c2)),
   (.cmdFastOn, 0x12, fun c2 => .fastOn (if c2 = 0 then none else some c2)),
   (.cmdOff, 0x13, fun c2 => .off (if c2 = 0 then none else some c2)),
   (.cmdFastOff, 0x14, fun c2 => .fastOff (if c2 = 0 then none else some c2)),
   (.cmdBright, 0x15, fun c2 => .bright (if c2 = 0 then none else some c2)),
   (.cmdDim, 0x16, fun c2 => .dim (if c2 = 0 then none else some c2)),
   (.cmdStart, 0x17, fun c2 => .start (if c2 = 0x01 then .bright else .dim)),
   (.cmdStop, 0x18, fun _ => .stop),
   (.cmdStatusRequest, 0x19, fun _ => .statusRequest)]

/-- The button rows: constructor, default byte, button, action (41_message_frames.md R131). -/
def btnRows : List (Instr × Byte × Button × ButtonAction) :=
  [(.btn1Tapped, 0x02, .one, .tapped), (.btn1Held, 0x03, .one, .held), (.btn1Released, 0x04, .one, .released),
   (.btn2Tapped, 0x12, .two, .tapped), (.btn2Held, 0x13, .two, .held), (.btn2Released, 0x14, .two, .released),
   (.btn3Tapped, 0x22, .three, .tapped), (.btn3Held, 0x23, .three, .held), (.btn3Released, 0x24, .three, .released)]

end Sys2Proof.Machine
end

