-- ==== Sys2Proof/Certificates/Slice0/Obligations.lean ====
section
/-! DEFINITION. The statements for the provers. Each says what a numbered rule of spec/ says an edge, an instruction or a
codec does. A next state is written out in full, as a record update, so that every field not named in it is said to be
unchanged: that is the statement's frame. -/

open Sys2Proof Sys2Proof.Machine

/-! ## The edges that run no row -/

/-- R91: a byte other than the marker taken in HUNT is dropped; nothing but the edge is consumed. -/
def Obligations.HuntDropsNoise : Prop :=
  ∀ s : State, s.params.ok = true → s.st = .hunt → s.transfers = true → s.edge.inData ≠ 0x02 →
    step s = .next { s with inputs := s.inputs.tail }

/-- R94, with R93 and R105: an unrecognised opcode is consumed and the attempt discarded; no record. -/
def Obligations.UnrecognisedOpcodeIsDiscarded : Prop :=
  ∀ s : State, s.params.ok = true → s.st = .opc → s.transfers = true →
    lookup s.params s.edge.mode s.edge.inData = .none →
    step s = .next { s with
      st := .hunt, opcR := s.edge.inData, modeL := s.edge.mode, cnt := 0, lenR := 0, inputs := s.inputs.tail }

/-- R101: in OUT a ready sink takes the record and scanning resumes; otherwise the record is held. No byte is taken and
`in_err` is not sampled. -/
def Obligations.OutHandsOverOrHolds : Prop :=
  ∀ s : State, s.params.ok = true → s.st = .out → s.edge.rst = false →
    (s.edge.outReady = true →
      step s = .next { s with st := .hunt, sink := s.sink ++ s.record.toList, inputs := s.inputs.tail }) ∧
    (s.edge.outReady = false → step s = .next { s with inputs := s.inputs.tail })

/-- R102 and R212: a source failure in a read phase ends the stream, whether or not a byte is offered. -/
def Obligations.SourceFailureEndsStream : Prop :=
  ∀ s : State, s.params.ok = true → (s.st = .hunt ∨ s.st = .opc ∨ s.st = .pay) → s.edge.rst = false →
    s.edge.inErr = true →
    step s = .next { s with st := .eos, inputs := s.inputs.tail } ∧
    ∀ t, step s = .next t → t.eos = true ∧ t.inReady = false ∧ t.outValid = false ∧ t.record = none

/-- R103: only reset leaves EOS; every other edge changes nothing. -/
def Obligations.EndOfStreamIsTerminal : Prop :=
  ∀ s : State, s.params.ok = true → s.st = .eos →
    (s.edge.rst = false → step s = .next { s with inputs := s.inputs.tail }) ∧
    (s.edge.rst = true → ∃ t, step s = .next t ∧ t.st = .hunt)

/-- R104: an idle edge in a read phase changes nothing. -/
def Obligations.IdleEdgeChangesNothing : Prop :=
  ∀ s : State, s.params.ok = true → (s.st = .hunt ∨ s.st = .opc ∨ s.st = .pay) → s.edge.rst = false →
    s.edge.inErr = false → s.edge.inValid = false →
    step s = .next { s with inputs := s.inputs.tail }

/-- R230: a reset edge, whatever the state and the other inputs, goes to HUNT, transfers nothing and hands nothing over;
the registers other than `ST` are left open. -/
def Obligations.ResetEdgeReturnsToHunt : Prop :=
  ∀ s : State, s.params.ok = true → s.edge.rst = true →
    s.transfers = false ∧ s.handsOver = false ∧
    ∃ t, step s = .next t ∧ t.st = .hunt ∧ t.inReady = true ∧ t.outValid = false ∧ t.eos = false ∧
      t.sink = s.sink ∧ t.inputs = s.inputs.tail ∧ t.params = s.params

/-- R34 and R231: right after reset the FSD is in HUNT, ready for a byte, with no record and no end of stream. -/
def Obligations.ResetStateHunts : Prop :=
  State.reset.st = .hunt ∧ State.reset.inReady = true ∧ State.reset.outValid = false ∧ State.reset.eos = false ∧
  State.reset.presented = none

/-- R7: a step is refused exactly for a parameter set that fails the check; the default instance passes; and what breaks
(a) to (e) fails it: a length over 20, a missing or a second UNSUPPORTED, an opcode of the message space, a foreign
opcode that is no extension, a button pair without a byte or with two, two bytes for one role. The check also asks that
no table lists a byte twice, which R7 does not say (log entry 19, DESIGN CHOICE), and takes only the kind `extension` for a
deliberate extension (log entry 26, DESIGN CHOICE); the default instance holds the tables of log entries 7 to 9
(PRESUMED). -/
def Obligations.IllFormedParametersAreRefused : Prop :=
  (∀ s : State, step s = .refused .illFormedParams ↔ s.params.ok = false) ∧
  defaultParams.ok = true ∧
  (∀ p : Params, ∀ op len k, (op, RespEntry.entry len k) ∈ p.respTable → 20 < len.toNat → p.ok = false) ∧
  (∀ p : Params, lookup p .rsp 0x62 ≠ .unsupported → p.ok = false) ∧
  (∀ p : Params, ∀ op, op ≠ 0x62 → lookup p .rsp op = .unsupported → p.ok = false) ∧
  (∀ p : Params, ∀ op, 0x50#8 ≤ op → op ≤ 0x59#8 → lookup p .rsp op ≠ .none → p.ok = false) ∧
  (∀ p : Params, ∀ op len k, lookup p .rsp op = .entry len (.rsp k) → (op < 0x60#8 ∨ 0x73#8 < op) →
    (∀ layout, k ≠ .extension layout) → p.ok = false) ∧
  (∀ p : Params, ∀ bt, buttonByte p bt = none → p.ok = false) ∧
  (∀ p : Params, ∀ a b : Byte, a ≠ b → buttonOf p a ≠ none → buttonOf p a = buttonOf p b → p.ok = false) ∧
  (∀ p : Params, ∀ a b : Byte, a ≠ b → linkRoleOf p a ≠ none → linkRoleOf p a = linkRoleOf p b → p.ok = false)

/-! ## The step -/

/-- A transferred byte that decodes, at the state's position, to a row runs exactly that row; the step adds nothing
around it. Every instruction so run is well formed at its position and encodes to the byte. -/
def Obligations.StepRunsTheDecodedInstruction : Prop :=
  ∀ (s : State) (pos : Position) (i : Instr), s.params.ok = true → s.transfers = true →
    s.position = some pos → decode s.params pos s.edge.inData = some i →
    step s = exec i s

/-- R90 (with R91 to R104 and R230): decoding a byte and running its row amounts, on every edge, to the whole step as R90
writes it; and no edge both transfers a byte and hands a record over (which R90 marks as derived from R25). The check of an
X10_SENT entry of length 1 or 2 is the model's choice (log entry 24). -/
def Obligations.StepIsTheReferenceStep : Prop :=
  ∀ s : State, s.params.ok = true → (s.st = .pay → s.cnt.toNat < 20) →
    step s = .next (referenceEdge s) ∧ ¬ (s.transfers = true ∧ s.handsOver = true)

/-- R35, inductive: every step of a well-formed instance keeps the invariant. -/
def Obligations.StepKeepsInvariant : Prop :=
  ∀ s t : State, Inv s → step s = .next t → Inv t

/-- R35 at reset. -/
def Obligations.ResetMeetsInvariant : Prop := Inv State.reset ∧ State.reset.params.ok = true

/-- No edge of a well-formed instance in an invariant state stops the machine, whatever the environment does. -/
def Obligations.StepNeverStops : Prop :=
  ∀ s : State, s.params.ok = true → Inv s → ∃ t, step s = .next t

/-- R33, R60, R233: no step changes a parameter. -/
def Obligations.ParametersNeverChange : Prop :=
  ∀ s t : State, step s = .next t → t.params = s.params

/-- R23, R55, R57: the sink gets exactly the presented record, whole, exactly on a hand-over edge, and keeps its order. -/
def Obligations.SinkGrowsOnlyByHandOver : Prop :=
  ∀ s t : State, step s = .next t →
    t.sink = s.sink ++ (if s.handsOver = true then s.record.toList else [])

/-- R23 and R55: while a record is presented and not handed over, every output stays constant. -/
def Obligations.HeldRecordIsConstant : Prop :=
  ∀ s t : State, s.st = .out → s.edge.rst = false → s.edge.outReady = false → step s = .next t →
    t.outValid = true ∧ t.presented = s.presented ∧ t.inReady = false ∧ t.eos = false

/-- R24 and R236 (which the spec marks as derived from R93 and R94): `mode` is latched on an edge that transfers an opcode
byte, and has no effect on any other edge. -/
def Obligations.ModeMattersOnlyOnOpcodeEdge : Prop :=
  (∀ (s : State) (e : Edge) (m : Mode) (r : List Edge),
    ¬ ((s.st = .opc) ∧ ({ s with inputs := e :: r } : State).transfers = true) →
    step { s with inputs := e :: r } = step { s with inputs := { e with mode := m } :: r }) ∧
  (∀ s t : State, s.st = .opc → s.transfers = true → step s = .next t → t.modeL = s.edge.mode)

/-- R21, R22, R238, R239: a byte that is not transferred is ignored, and `in_err` and `in_valid` have no effect while
`in_ready = 0`. -/
def Obligations.UnsampledInputsAreIgnored : Prop :=
  (∀ (s : State) (e : Edge) (b : Byte) (r : List Edge),
    ({ s with inputs := e :: r } : State).transfers = false →
    step { s with inputs := e :: r } = step { s with inputs := { e with inData := b } :: r }) ∧
  (∀ (s : State) (e : Edge) (v f : Bool) (r : List Edge), s.inReady = false →
    step { s with inputs := e :: r } = step { s with inputs := { e with inValid := v, inErr := f } :: r })

/-- R105 and R211: a class-1 event changes `ST` and nothing else; R212 and R213 for the other two classes. -/
def Obligations.EventsEnterInOneTransition : Prop :=
  (∀ (e : Event) (s : State), e.errorClass = 1 → raise e s = { s with st := .hunt }) ∧
  (∀ (op : Byte) (s : State),
    raise (.e5 op) s = { s with st := .out, modeL := .rsp, opcR := op, lenR := 0 }) ∧
  (∀ s : State, raise .e6 s = { s with st := .eos })

/-- R25: the output ports are these functions of the registers. -/
def Obligations.OutputsAreFunctionsOfRegisters : Prop :=
  ∀ s : State,
    (s.inReady = true ↔ s.st = .hunt ∨ s.st = .opc ∨ s.st = .pay) ∧
    (s.outValid = true ↔ s.st = .out) ∧
    (s.eos = true ↔ s.st = .eos) ∧
    (s.outUnsup = true ↔ s.modeL = .rsp ∧ s.opcR = 0x62) ∧
    (∀ i : Fin 20, s.outPayload.extractLsb' (8 * i.val) 8 = s.buf[i]) ∧
    (s.st = .out → ∃ v, s.presented = some v ∧ v.mode = modeBit s.modeL ∧ v.opcode = s.opcR ∧
      v.unsup = s.outUnsup ∧ v.len = s.lenR ∧ v.payload = s.outPayload ∧ v.fields = s.record)

/-- R106: a run of edges without reset hands on exactly the records of the transaction-level function over the transferred
bytes, and ends where it does: idle edges and a waiting sink change nothing. The check of an X10_SENT entry of length 1
or 2, in both, is the model's choice (log entry 24). -/
def Obligations.EdgesRefineTheTransactionLevel : Prop :=
  ∀ (n : Nat) (s t : State) (S : Scan), s.params.ok = true → Inv s → Agrees s S →
    (∀ e ∈ s.inputs.take n, e.rst = false) →
    Host.Core.run Sys2Proof.core n s = .next t →
    t.emitted = s.emitted ++ (feedAll s.params S (transferred n s)).2 ∧
    Agrees t (if t.st = .eos then (feedAll s.params S (transferred n s)).1.fail
              else (feedAll s.params S (transferred n s)).1)

/-- R107: a marker taken in HUNT, a recognised opcode and its payload are consumed as one frame of `L + 2` bytes, whatever
the payload's values; it ends in one record or a silent discard. The check of an X10_SENT entry of length 1 or 2 is the
model's choice (log entry 24). -/
def Obligations.FrameIsConsumedWhole : Prop :=
  ∀ (s : State) (m : Mode) (op : Byte) (len : Len) (k : Kind) (P : List Byte) (es rest : List Edge),
    s.params.ok = true → s.st = .hunt → lookup s.params m op = .entry len k → P.length = len.toNat →
    s.inputs = es ++ rest → es.map Edge.inData = 0x02 :: op :: P →
    (∀ e ∈ es, e.rst = false ∧ e.inErr = false ∧ e.inValid = true) → (es.map Edge.mode)[1]? = some m →
    ∃ t, Host.Core.run Sys2Proof.core (len.toNat + 2) s = .next t ∧
      t.inputs = rest ∧ t.sink = s.sink ∧ t.params = s.params ∧
      t.modeL = m ∧ t.opcR = op ∧ t.lenR = len ∧ t.cnt = len ∧ t.buf.toList.take len.toNat = P ∧
      t.st = (if valid s.params m op t.payload = true then .out else .hunt) ∧
      t.record = (if valid s.params m op t.payload = true then recordOf s.params m op t.payload else none)

/-! ## Decoding and encoding -/

/-- R65 to R75, R140: a well-formed instruction of any row is read back from its byte. -/
def Obligations.DecodeOfEncodeIsTheInstruction : Prop :=
  ∀ (p : Params) (pos : Position) (i : Instr), p.ok = true → i.wellFormed p pos = true →
    decode p pos (encode p i) = some i

/-- R65 to R75, R140: what the decoder reads is well formed at that position and encodes to the byte it was read from. -/
def Obligations.DecodedInstructionIsWellFormed : Prop :=
  ∀ (p : Params) (pos : Position) (b : Byte) (i : Instr), p.ok = true → decode p pos b = some i →
    i.wellFormed p pos = true ∧ encode p i = b

/-- A few words of spec/opcode_table.json, written out from it, decode to their rows. The position a bare word is decoded at
is the model's choice, and for 0x02, which stands in two rows, so is the earlier row (log entry 1, DESIGN CHOICE); 0x60
and 0x24 rest on the default tables of log entries 7 and 8 (PRESUMED). -/
def Obligations.TableWordsDecode : Prop :=
  decodeTableWord 8 0x02 = some .marker ∧
  decodeTableWord 8 0x50 = some (.receivedStd (.accept 0x50)) ∧
  decodeTableWord 8 0x60 = some (.getInfo (.accept 0x60)) ∧
  decodeTableWord 8 0x62 = some .unsupported ∧
  decodeTableWord 8 0x11 = some (.cmdOn .select) ∧
  decodeTableWord 8 0x24 = some .btn3Released ∧
  decodeTableWord 8 0x80 = some .x10Command

/-- R67, R68, R76, R78: whatever the instance, the message table has exactly its ten opcodes with their lengths and
kinds, and no other byte, the marker included, is recognised. -/
def Obligations.MessageTableIsAsStated : Prop :=
  ∀ (p : Params) (op : Byte),
    (∀ r ∈ msgRows, lookup p .msg r.2.1 = .entry r.2.2.1 (.msg r.2.2.2)) ∧
    lookup p .msg 0x55 = .entry 0 (.msg .userReset) ∧
    (lookup p .msg op ≠ .none ↔ 0x50#8 ≤ op ∧ op ≤ 0x59#8)

/-- The default instance holds the tables the spec lists in 42_response_frames.md, 41_message_frames.md and
44_aux_codecs.md. The spec takes their contents from general knowledge (log entries 7, 8 and 9, PRESUMED), so no rule is
cited: the twenty response opcodes and no other, the nine button bytes and no other, the three roles. -/
def Obligations.DefaultTablesAreAsListed : Prop :=
  (∀ r ∈ rspRows, lookup defaultParams .rsp r.2.1 = .entry r.2.2.1 (.rsp r.2.2.2)) ∧
  lookup defaultParams .rsp 0x62 = .unsupported ∧
  (∀ op, lookup defaultParams .rsp op ≠ .none ↔ 0x60#8 ≤ op ∧ op ≤ 0x73#8) ∧
  (∀ r ∈ btnRows, buttonOf defaultParams r.2.1 = some r.2.2) ∧
  (∀ b, buttonOf defaultParams b ≠ none → b ∈ btnRows.map (·.2.1)) ∧
  (∀ b, linkRoleOf defaultParams b =
    if b = 0x00 then some .responder else if b = 0x01 then some .controller
    else if b = 0xFF then some .deleted else none)

/-! ## The frames: completion and frame conditions -/

/-- R92: the marker. -/
def Obligations.MarkerStartsAFrame : Prop :=
  ∀ s : State, s.st = .hunt → exec .marker s = .next { s with st := .opc, inputs := s.inputs.tail }

/-- R93 and R97 for the nine message opcodes that have a payload. -/
def Obligations.MessageOpcodeStartsItsPayload : Prop :=
  ∀ r ∈ msgRows, ∀ s : State, s.st = .opc → s.edge.mode = .msg →
    exec (r.1 (.accept r.2.1)) s = .next { s with
      st := .pay, opcR := r.2.1, modeL := .msg, cnt := 0, lenR := r.2.2.1, inputs := s.inputs.tail }

/-- R93 and R97 for the nineteen response kinds, at whatever opcode and length the instance's table gives them. -/
def Obligations.ResponseOpcodeStartsItsPayload : Prop :=
  ∀ r ∈ rspRows, ∀ (s : State) (op : Byte) (len : Len), s.st = .opc → s.edge.mode = .rsp →
    lookup s.params .rsp op = .entry len (.rsp r.2.2.2) → len ≠ 0 →
    exec (r.1 (.accept op)) s = .next { s with
      st := .pay, opcR := op, modeL := .rsp, cnt := 0, lenR := len, inputs := s.inputs.tail }

/-- R125 and R96: USER_RESET has no payload, so its opcode edge presents the record. -/
def Obligations.UserResetPresentsItsRecord : Prop :=
  ∀ s : State, s.st = .opc → s.edge.mode = .msg →
    ∃ t, exec .userReset s = .next t ∧
      t = { s with st := .out, opcR := 0x55, modeL := .msg, cnt := 0, lenR := 0, inputs := s.inputs.tail } ∧
      t.record = some .userReset

/-- R96 and R215: an entry of length 0 is presented on the opcode edge, for every response kind: the check is true there, so
no event arises, and a record of the row is handed on (for X10_SENT a free message, log entry 24). -/
def Obligations.LengthZeroEntryIsPresentedAtOnce : Prop :=
  ∀ r ∈ rspRows, ∀ (s : State) (op : Byte), s.st = .opc → s.edge.mode = .rsp →
    lookup s.params .rsp op = .entry 0 (.rsp r.2.2.2) →
    ∃ t, exec (r.1 (.accept op)) s = .next t ∧
      t = { s with st := .out, opcR := op, modeL := .rsp, cnt := 0, lenR := 0, inputs := s.inputs.tail } ∧
      t.outValid = true ∧ ∃ rec, t.record = some rec

/-- R95, R141 and R213: 0x62 is reported as the UNSUPPORTED record; no payload byte is consumed. -/
def Obligations.UnsupportedOpcodeIsReported : Prop :=
  ∀ s : State, s.params.ok = true → s.st = .opc → s.edge.mode = .rsp →
    ∃ t, exec .unsupported s = .next t ∧
      t = { s with st := .out, opcR := 0x62, modeL := .rsp, cnt := 0, lenR := 0, inputs := s.inputs.tail } ∧
      t.outValid = true ∧ t.outUnsup = true ∧ t.record = some (.unsupported (opcode := 0x62))

/-- R98 and R99 for every frame row that has a payload: the byte is stored at `CNT` whatever its value, the counter goes
up by one, and the last byte presents the frame or discards it. -/
def Obligations.PayloadByteIsStored : Prop :=
  (∀ r ∈ msgRows, ∀ (s : State) (b : Byte), s.st = .pay → s.kind = some (.msg r.2.2.2) → s.cnt.toNat < 20 →
    exec (r.1 (.payload b)) s = .next (afterPayload b s)) ∧
  (∀ r ∈ rspRows, ∀ (s : State) (b : Byte), s.st = .pay → s.kind = some (.rsp r.2.2.2) → s.cnt.toNat < 20 →
    exec (r.1 (.payload b)) s = .next (afterPayload b s))

/-- R186 with R98: the thirteen command rows store `c1` and then `c2`, in the frames that hold a command pair, and the
stored pair decodes to the row's command. -/
def Obligations.CommandPairIsTakenAndDecodes : Prop :=
  ∀ r ∈ cmdRows, ∀ (s : State) (k : Kind) (j : Nat) (c2 : Byte),
    s.st = .pay → s.kind = some k → commandIndex k = some j →
    (s.cnt.toNat = j → exec (r.1 .select) s = .next (afterPayload r.2.1 s) ∧
      (afterPayload r.2.1 s).buf.toList[j]? = some r.2.1) ∧
    (s.cnt.toNat = j + 1 → s.buf.toList[j]? = some r.2.1 →
      exec (r.1 (.data c2)) s = .next (afterPayload c2 s) ∧
      ∃ a b, (afterPayload c2 s).buf.toList[j]? = some a ∧ (afterPayload c2 s).buf.toList[j + 1]? = some b ∧
        cmdDec a b = some (r.2.2 c2))

/-- R124 and R99: each button row takes the byte that the instance's table gives its pair, completes the frame and
presents its button and action. -/
def Obligations.ButtonByteCompletesTheFrame : Prop :=
  ∀ r ∈ btnRows, ∀ (s : State) (b : Byte), s.params.ok = true → buttonOf s.params b = some r.2.2 →
    s.st = .pay → s.modeL = .msg → s.opcR = 0x54 → s.lenR = 1 → s.cnt = 0 →
    ∃ t, exec r.1 s = .next t ∧
      t = { s with st := .out, buf := s.buf.set 0 b, cnt := 1, inputs := s.inputs.tail } ∧
      t.record = some (.buttonEvent (button := r.2.2.1) (action := r.2.2.2))

/-- R174 with R98: the two X10 flag bytes are stored, in both kinds of frame that carry an X10 message. -/
def Obligations.X10FlagIsStored : Prop :=
  ∀ s : State, s.st = .pay → (s.kind = some (.msg .x10Received) ∨ s.kind = some (.rsp .x10Sent)) → s.cnt = 1 →
    exec .x10Unit s = .next (afterPayload 0x00 s) ∧ exec .x10Command s = .next (afterPayload 0x80 s)

/-! ## The frames: the records -/

/-- R120. -/
def Obligations.ReceivedStdRecord : Prop :=
  ∀ (s : State) (b : Byte), s.st = .pay → s.modeL = .msg → s.opcR = 0x50 → s.lenR = 6 → s.cnt = 5 →
    ∃ t, exec (.receivedStd (.payload b)) s = .next t ∧
      t = { s with st := .out, buf := s.buf.set 5 b, cnt := 6, inputs := s.inputs.tail } ∧
      t.record = some (.receivedStd
        (addr := ⟨s.buf[0], s.buf[1], s.buf[2]⟩) (addrValue := addrReduce s.buf[0] s.buf[1] s.buf[2])
        (cmd := cmdDec s.buf[3] s.buf[4]) (cmdRaw := (s.buf[3], s.buf[4])) (flags := b) (ext := none))

/-- R121. -/
def Obligations.ReceivedExtRecord : Prop :=
  ∀ (s : State) (b : Byte), s.st = .pay → s.modeL = .msg → s.opcR = 0x51 → s.lenR = 20 → s.cnt = 19 →
    ∃ t, exec (.receivedExt (.payload b)) s = .next t ∧
      t = { s with st := .out, buf := s.buf.set 19 b, cnt := 20, inputs := s.inputs.tail } ∧
      t.record = some (.receivedExt
        (addr := ⟨s.buf[0], s.buf[1], s.buf[2]⟩) (addrValue := addrReduce s.buf[0] s.buf[1] s.buf[2])
        (cmd := cmdDec s.buf[3] s.buf[4]) (cmdRaw := (s.buf[3], s.buf[4])) (flags := s.buf[5])
        (ext := some ((s.buf.toList.drop 6).take 13 ++ [b])))

/-- R122, and the X10 echo of R145 at whatever opcode the instance's table gives it with its three bytes: an X10 message
that parses is presented, one that does not is discarded. The layout of the echo is PRESUMED (log entry 7). -/
def Obligations.X10Records : Prop :=
  ∀ (s : State) (b : Byte), s.st = .pay → s.lenR = 3 → s.cnt = 2 →
    (s.modeL = .msg → s.opcR = 0x52 →
      exec (.x10Received (.payload b)) s = .next (afterPayload b s) ∧
      (∀ x, x10Dec s.buf[0] s.buf[1] b = some x →
        (afterPayload b s).st = .out ∧
        (afterPayload b s).record = some (.x10Received (house := x.house) (payload := x.payload) (success := b == 0x06))) ∧
      (x10Dec s.buf[0] s.buf[1] b = none → (afterPayload b s).st = .hunt ∧ (afterPayload b s).record = none)) ∧
    (s.params.ok = true → s.modeL = .rsp → lookup s.params .rsp s.opcR = .entry 3 (.rsp .x10Sent) →
      exec (.x10Sent (.payload b)) s = .next (afterPayload b s) ∧
      (∀ x, x10Dec s.buf[0] s.buf[1] b = some x →
        (afterPayload b s).st = .out ∧
        (afterPayload b s).record = some (.x10Sent (house := x.house) (payload := x.payload) (success := b == 0x06))) ∧
      (x10Dec s.buf[0] s.buf[1] b = none → (afterPayload b s).st = .hunt ∧ (afterPayload b s).record = none))

/-- R123, R199 and R201: the link result of a known role is presented; an unknown role byte discards the frame. -/
def Obligations.LinkCompleteRecord : Prop :=
  ∀ (s : State) (b : Byte), s.st = .pay → s.modeL = .msg → s.opcR = 0x53 → s.lenR = 8 → s.cnt = 7 →
    exec (.linkComplete (.payload b)) s = .next (afterPayload b s) ∧
    (∀ r, linkRoleOf s.params s.buf[0] = some r →
      (afterPayload b s).st = .out ∧
      (afterPayload b s).record = some (.linkComplete (result :=
        { role := r, group := s.buf[1], addr := ⟨s.buf[2], s.buf[3], s.buf[4]⟩,
          addrValue := addrReduce s.buf[2] s.buf[3] s.buf[4], category := s.buf[5], subcategory := s.buf[6],
          catValid := r == .controller, firmware := if b = 0xFF then none else some b }))) ∧
    (linkRoleOf s.params s.buf[0] = none → (afterPayload b s).st = .hunt ∧ (afterPayload b s).record = none)

/-- R124: the button byte decides the frame: the record of its pair, or a silent discard. -/
def Obligations.ButtonEventRecord : Prop :=
  ∀ (s : State) (b : Byte), s.st = .pay → s.modeL = .msg → s.opcR = 0x54 → s.lenR = 1 → s.cnt = 0 →
    exec (.buttonEvent (.payload b)) s = .next (afterPayload b s) ∧
    (∀ t, buttonOf s.params b = some t →
      (afterPayload b s).st = .out ∧
      (afterPayload b s).record = some (.buttonEvent (button := t.1) (action := t.2))) ∧
    (buttonOf s.params b = none → (afterPayload b s).st = .hunt ∧ (afterPayload b s).record = none)

/-- R126 to R129. -/
def Obligations.OtherMessageRecords : Prop :=
  ∀ (s : State) (b : Byte), s.st = .pay → s.modeL = .msg →
    (s.opcR = 0x56 → s.lenR = 5 → s.cnt = 4 →
      ∃ t, exec (.linkCleanupFailed (.payload b)) s = .next t ∧
        t = { s with st := .out, buf := s.buf.set 4 b, cnt := 5, inputs := s.inputs.tail } ∧
        t.record = some (.linkCleanupFailed (group := s.buf[1]) (addr := ⟨s.buf[2], s.buf[3], b⟩)
          (addrValue := addrReduce s.buf[2] s.buf[3] b))) ∧
    (s.opcR = 0x57 → s.lenR = 8 → s.cnt = 7 →
      ∃ t, exec (.linkRecordResponse (.payload b)) s = .next t ∧
        t = { s with st := .out, buf := s.buf.set 7 b, cnt := 8, inputs := s.inputs.tail } ∧
        t.record = some (.linkRecordResponse (flags := s.buf[0]) (group := s.buf[1])
          (addr := ⟨s.buf[2], s.buf[3], s.buf[4]⟩) (addrValue := addrReduce s.buf[2] s.buf[3] s.buf[4])
          (linkData := (s.buf[5], s.buf[6], b)))) ∧
    (s.opcR = 0x58 → s.lenR = 1 → s.cnt = 0 →
      ∃ t, exec (.linkCleanupStatus (.payload b)) s = .next t ∧
        t = { s with st := .out, buf := s.buf.set 0 b, cnt := 1, inputs := s.inputs.tail } ∧
        t.record = some (.linkCleanupStatus (success := b == 0x06))) ∧
    (s.opcR = 0x59 → s.lenR = 10 → s.cnt = 9 →
      ∃ t, exec (.databaseRecordFound (.payload b)) s = .next t ∧
        t = { s with st := .out, buf := s.buf.set 9 b, cnt := 10, inputs := s.inputs.tail } ∧
        t.record = some (.databaseRecordFound (dbAddr := (s.buf[0], s.buf[1])) (dbAddrValue := s.buf[0] ++ s.buf[1])
          (flags := s.buf[2]) (group := s.buf[3]) (id := ⟨s.buf[4], s.buf[5], s.buf[6]⟩)
          (idValue := addrReduce s.buf[4] s.buf[5] s.buf[6]) (linkData := (s.buf[7], s.buf[8], b))))

/-- The responses that hold one acknowledge byte (R147, R149, R151, R152, R154, R155, R156 with R142), at whatever opcode
the instance's table gives the kind. Their layout is the spec's general knowledge (log entry 7). -/
def Obligations.AcknowledgeOnlyRecords : Prop :=
  ∀ r ∈ ([(.linkCancel, .linkCancel, fun a => .linkCancel a), (.reset, .reset, fun a => .reset a),
          (.firstLinkRecord, .firstLinkRecord, fun a => .firstLinkRecord a),
          (.nextLinkRecord, .nextLinkRecord, fun a => .nextLinkRecord a),
          (.senderLinkRecord, .senderLinkRecord, fun a => .senderLinkRecord a),
          (.ledOn, .ledOn, fun a => .ledOn a), (.ledOff, .ledOff, fun a => .ledOff a)] :
          List ((FrameEdge → Instr) × RspKind × (Bool → Record))),
    ∀ (s : State) (b : Byte), s.params.ok = true → s.st = .pay → s.modeL = .rsp →
      lookup s.params .rsp s.opcR = .entry 1 (.rsp r.2.1) → s.lenR = 1 → s.cnt = 0 →
      ∃ t, exec (r.1 (.payload b)) s = .next t ∧
        t = { s with st := .out, buf := s.buf.set 0 b, cnt := 1, inputs := s.inputs.tail } ∧
        t.record = some (r.2.2 (b == 0x06))

/-- The responses of one byte and an acknowledge byte (R150, R158, R153 with R142 and R197), as above. -/
def Obligations.OneByteAndAcknowledgeRecords : Prop :=
  ∀ r ∈ ([(.ackByteSet, .ackByteSet, fun x a => .ackByteSet x a), (.nakByteSet, .nakByteSet, fun x a => .nakByteSet x a),
          (.configSet, .configSet, fun x a => .configSet (cfgDec x) x a)] :
          List ((FrameEdge → Instr) × RspKind × (Byte → Bool → Record))),
    ∀ (s : State) (b : Byte), s.params.ok = true → s.st = .pay → s.modeL = .rsp →
      lookup s.params .rsp s.opcR = .entry 2 (.rsp r.2.1) → s.lenR = 2 → s.cnt = 1 →
      ∃ t, exec (r.1 (.payload b)) s = .next t ∧
        t = { s with st := .out, buf := s.buf.set 1 b, cnt := 2, inputs := s.inputs.tail } ∧
        t.record = some (r.2.2 s.buf[0] (b == 0x06))

/-- The responses of two bytes and an acknowledge byte (R146, R159, R160 with R142), as above. -/
def Obligations.TwoBytesAndAcknowledgeRecords : Prop :=
  ∀ r ∈ ([(.linkStart, .linkStart, fun x y a => .linkStart x y a),
          (.ackTwoBytesSet, .ackTwoBytesSet, fun x y a => .ackTwoBytesSet x y a),
          (.sleep, .sleep, fun x y a => .sleep x y a)] :
          List ((FrameEdge → Instr) × RspKind × (Byte → Byte → Bool → Record))),
    ∀ (s : State) (b : Byte), s.params.ok = true → s.st = .pay → s.modeL = .rsp →
      lookup s.params .rsp s.opcR = .entry 3 (.rsp r.2.1) → s.lenR = 3 → s.cnt = 2 →
      ∃ t, exec (r.1 (.payload b)) s = .next t ∧
        t = { s with st := .out, buf := s.buf.set 2 b, cnt := 3, inputs := s.inputs.tail } ∧
        t.record = some (r.2.2 s.buf[0] s.buf[1] (b == 0x06))

/-- The responses of three bytes and an acknowledge byte (R144, R148, R161 with R142, R186 and R197), as above. -/
def Obligations.ThreeBytesAndAcknowledgeRecords : Prop :=
  ∀ r ∈ ([(.linkCommandEcho, .linkCommandEcho, fun x y z a => .linkCommandEcho x (cmdDec y z) (y, z) a),
          (.categorySet, .categorySet, fun x y z a => .categorySet x y z a),
          (.configGet, .configGet, fun x y z a => .configGet (cfgDec x) x (y, z) a)] :
          List ((FrameEdge → Instr) × RspKind × (Byte → Byte → Byte → Bool → Record))),
    ∀ (s : State) (b : Byte), s.params.ok = true → s.st = .pay → s.modeL = .rsp →
      lookup s.params .rsp s.opcR = .entry 4 (.rsp r.2.1) → s.lenR = 4 → s.cnt = 3 →
      ∃ t, exec (r.1 (.payload b)) s = .next t ∧
        t = { s with st := .out, buf := s.buf.set 3 b, cnt := 4, inputs := s.inputs.tail } ∧
        t.record = some (r.2.2 s.buf[0] s.buf[1] s.buf[2] (b == 0x06))

/-- The modem information and the link record update (R143 and R157 with R142), as above. -/
def Obligations.GetInfoAndLinkRecordUpdateRecords : Prop :=
  ∀ (s : State) (b : Byte), s.params.ok = true → s.st = .pay → s.modeL = .rsp →
    (lookup s.params .rsp s.opcR = .entry 7 (.rsp .getInfo) → s.lenR = 7 → s.cnt = 6 →
      ∃ t, exec (.getInfo (.payload b)) s = .next t ∧
        t = { s with st := .out, buf := s.buf.set 6 b, cnt := 7, inputs := s.inputs.tail } ∧
        t.record = some (.getInfo (id := ⟨s.buf[0], s.buf[1], s.buf[2]⟩)
          (idValue := addrReduce s.buf[0] s.buf[1] s.buf[2]) (category := s.buf[3]) (subcategory := s.buf[4])
          (firmware := s.buf[5]) (ack := b == 0x06))) ∧
    (lookup s.params .rsp s.opcR = .entry 10 (.rsp .linkRecordUpdate) → s.lenR = 10 → s.cnt = 9 →
      ∃ t, exec (.linkRecordUpdate (.payload b)) s = .next t ∧
        t = { s with st := .out, buf := s.buf.set 9 b, cnt := 10, inputs := s.inputs.tail } ∧
        t.record = some (.linkRecordUpdate (control := s.buf[0]) (flags := s.buf[1]) (group := s.buf[2])
          (addr := ⟨s.buf[3], s.buf[4], s.buf[5]⟩) (addrValue := addrReduce s.buf[3] s.buf[4] s.buf[5])
          (linkData := (s.buf[6], s.buf[7], s.buf[8])) (ack := b == 0x06)))

/-- R100, R130 and R162: a record exists exactly for a listed opcode whose payload passes the validity check, at every
payload (for an X10_SENT entry of length below 3, see log entry 24). -/
def Obligations.RecordExistsExactlyWhenValid : Prop :=
  ∀ (p : Params) (m : Mode) (op : Byte) (P : Payload),
    (recordOf p m op P).isSome = true ↔ lookup p m op ≠ .none ∧ valid p m op P = true

/-- R162 and D8: the frame of an extension entry is taken like any other, though no row of the opcode table claims its
bytes; its record has the fields of its layout, which log entry 11 (the model's choice) takes to be named byte ranges. -/
def Obligations.ExtensionFrameIsTaken : Prop :=
  ∀ (s : State) (len : Len) (layout : List LayoutField), s.params.ok = true →
    (s.st = .opc → s.transfers = true → s.edge.mode = .rsp →
      lookup s.params .rsp s.edge.inData = .entry len (.rsp (.extension layout)) →
      step s = .next { s with st := if len = 0 then .out else .pay, opcR := s.edge.inData, modeL := .rsp, cnt := 0,
                              lenR := len, inputs := s.inputs.tail }) ∧
    (s.st = .pay → s.transfers = true → s.kind = some (.rsp (.extension layout)) → s.cnt.toNat < 20 →
      step s = .next (afterPayload s.edge.inData s) ∧
      (s.cnt + 1 = s.lenR → (∀ f ∈ layout, f.start + f.len ≤ s.lenR.toNat) →
        (afterPayload s.edge.inData s).record = some (.extension (opcode := s.opcR)
          (fields := layout.map fun f =>
            (f.name, ((s.buf.toList.set s.cnt.toNat s.edge.inData).drop f.start).take f.len)))))

/-! ## The codecs -/

/-- R170 to R172: the permutation is the stated table, and a bijection (R171 and R172 are marked as derived from R170). -/
def Obligations.NibblePermutationIsTheTable : Prop :=
  ([0x6, 0xE, 0x2, 0xA, 0x1, 0x9, 0x5, 0xD, 0x7, 0xF, 0x3, 0xB, 0x0, 0x8, 0x4, 0xC] : List Nibble).map
    (fun n => (nib2idx n).number) = [1, 2, 3, 4, 5, 6, 7, 8, 9, 10, 11, 12, 13, 14, 15, 16] ∧
  (∀ n : Nibble, idx2nib (nib2idx n) = n) ∧ (∀ i : X10Index, nib2idx (idx2nib i) = i)

/-- R173 to R176: when an X10 message decodes, and to what. -/
def Obligations.X10DecodeIsAsStated : Prop :=
  ∀ b0 b1 b2 : Byte,
    (b1 = 0x00 → x10Dec b0 b1 b2 =
      some ⟨nib2idx (highNibble b0), .unit (nib2idx (lowNibble b0)), b2 == 0x06⟩) ∧
    (b1 = 0x80 → nib2idx (lowNibble b0) ≠ Config.x10CmdHole → x10Dec b0 b1 b2 =
      some ⟨nib2idx (highNibble b0), .command (nib2idx (lowNibble b0)), b2 == 0x06⟩) ∧
    (b1 = 0x80 → nib2idx (lowNibble b0) = Config.x10CmdHole → x10Dec b0 b1 b2 = none) ∧
    (b1 ≠ 0x00 → b1 ≠ 0x80 → x10Dec b0 b1 b2 = none)

/-- R177: the encode direction, its refusal at the hole, and both round trips. -/
def Obligations.X10CodecRoundTrips : Prop :=
  (∀ x : X10Message, x10Enc x = none ↔ x.payload = .command Config.x10CmdHole) ∧
  (∀ (x : X10Message) (b : Byte × Byte × Byte), x10Enc x = some b → x10Dec b.1 b.2.1 b.2.2 = some x) ∧
  (∀ (b0 b1 b2 : Byte) (x : X10Message), x10Dec b0 b1 b2 = some x →
    (x10Enc x = some (b0, b1, b2) ↔ b2 = 0x06 ∨ b2 = 0x15))

/-- R185: the reduced address is the stated sum, and the concatenation of the three bytes. -/
def Obligations.AddressReduceIsTheSum : Prop :=
  ∀ h m l : Byte,
    (addrReduce h m l).toNat = h.toNat * 65536 + m.toNat * 256 + l.toNat ∧
    (h ++ m ++ l : BitVec 24) = addrReduce h m l

/-- R186 to R191: the command decoder, for every pair of bytes. -/
def Obligations.CommandDecodeIsAsStated : Prop :=
  ∀ c1 c2 : Byte,
    (∀ r ∈ cmdRows, c1 = r.2.1 → cmdDec c1 c2 = some (r.2.2 c2)) ∧
    ((∀ r ∈ cmdRows, c1 ≠ r.2.1) → cmdDec c1 c2 = none)

/-- R192 to R196 and R202 (which the spec marks as derived): the two bytes of every command, and what they decode to: the
command itself, but for an on level, which decodes to a group. That a present optional group is not 0 is the premise of
log entry 21 (DEDUCED). -/
def Obligations.CommandCodecRoundTrips : Prop :=
  (∀ c : Command, c.wellFormed = true → (∀ v, c ≠ .on (.level v)) → cmdDec (cmdEnc c).1 (cmdEnc c).2 = some c) ∧
  (∀ v : Byte, cmdEnc (.on (.group v)) = (0x11, v) ∧ cmdEnc (.on (.level v)) = (0x11, v) ∧
    cmdDec (cmdEnc (.on (.level v))).1 (cmdEnc (.on (.level v))).2 = some (.on (.group v))) ∧
  cmdEnc (.start .dim) = (0x17, 0x00) ∧ cmdEnc (.start .bright) = (0x17, 0x01)

/-- R197 and R198: each Config bit by its weight, bits 2 to 0 ignored and written 0, and both round trips (which R198 marks as
derived). -/
def Obligations.ConfigCodecRoundTrips : Prop :=
  (∀ b : Byte, (cfgDec b).autoLink = decide (b.toNat / 128 % 2 = 0) ∧ (cfgDec b).monitor = decide (b.toNat / 64 % 2 = 1) ∧
    (cfgDec b).manualLed = decide (b.toNat / 32 % 2 = 1) ∧ (cfgDec b).timeout = decide (b.toNat / 16 % 2 = 0) ∧
    (cfgDec b).busyReject = decide (b.toNat / 8 % 2 = 1)) ∧
  (∀ c : ConfigFlags, (cfgEnc c).toNat = (if c.autoLink then 0 else 128) + (if c.monitor then 64 else 0) +
    (if c.manualLed then 32 else 0) + (if c.timeout then 0 else 16) + (if c.busyReject then 8 else 0)) ∧
  (∀ c : ConfigFlags, cfgDec (cfgEnc c) = c) ∧ (∀ b : Byte, cfgEnc (cfgDec b) = b &&& 0xF8)

/-- R27 to R31: without reset, the opcode registers are written on an opcode edge only, the counter on opcode and payload
edges only, and each buffer byte only by the payload edge whose `CNT` is its index; R31 and R34 (the latter marked as
derived): no step and no record reads a stale register; and (log entry 12, the model's choice) a payload edge faults
exactly where there is no buffer byte. -/
def Obligations.RegistersAreWrittenOnlyByTheirEdges : Prop :=
  (∀ s t : State, step s = .next t → s.edge.rst = false →
    (s.st = .opc ∧ s.transfers = true → t.opcR = s.edge.inData ∧ t.modeL = s.edge.mode ∧ t.cnt = 0) ∧
    (¬ (s.st = .opc ∧ s.transfers = true) → t.opcR = s.opcR ∧ t.modeL = s.modeL ∧ t.lenR = s.lenR ∧
      t.cnt = (if s.st = .pay ∧ s.transfers = true then s.cnt + 1 else s.cnt)) ∧
    (∀ i : Fin 20, t.buf[i] =
      if s.st = .pay ∧ s.transfers = true ∧ s.cnt.toNat = i.val then s.edge.inData else s.buf[i])) ∧
  (∀ s u t : State, Inv s → SameLive s u → step s = .next t →
    ∃ v, step u = .next v ∧ SameLive t v ∧ t.record = v.record) ∧
  (∀ (s : State) (b : Byte), takePayload b s = .fault .bufferIndex ↔ 20 ≤ s.cnt.toNat)

/-- Log entry 13 (the model's choice): a row runs only in the phase its byte is taken in; anywhere else it is refused by
name, and no instruction runs in OUT or EOS. -/
def Obligations.RowsRunOnlyInTheirPhase : Prop :=
  ∀ (i : Instr) (s : State), s.st ≠ rowPhase i → exec i s = .refused .notAtPosition
end

