-- ==== Sys2Proof/Laws/State.lean ====
section
/-! SUPPORT. One lemma per field of State per named update: what each update leaves in each field. -/

namespace Sys2Proof.Machine

@[simp] theorem tick_st (s : State) : s.tick.st = s.st := rfl
@[simp] theorem tick_modeL (s : State) : s.tick.modeL = s.modeL := rfl
@[simp] theorem tick_opcR (s : State) : s.tick.opcR = s.opcR := rfl
@[simp] theorem tick_lenR (s : State) : s.tick.lenR = s.lenR := rfl
@[simp] theorem tick_cnt (s : State) : s.tick.cnt = s.cnt := rfl
@[simp] theorem tick_buf (s : State) : s.tick.buf = s.buf := rfl
@[simp] theorem tick_params (s : State) : s.tick.params = s.params := rfl
@[simp] theorem tick_inputs (s : State) : s.tick.inputs = s.inputs.tail := rfl
@[simp] theorem tick_sink (s : State) : s.tick.sink = s.sink := rfl
@[simp] theorem tick_draws (s : State) : s.tick.draws = s.draws := rfl

@[simp] theorem goto_st (p : Phase) (s : State) : (s.goto p).st = p := rfl
@[simp] theorem goto_modeL (p : Phase) (s : State) : (s.goto p).modeL = s.modeL := rfl
@[simp] theorem goto_opcR (p : Phase) (s : State) : (s.goto p).opcR = s.opcR := rfl
@[simp] theorem goto_lenR (p : Phase) (s : State) : (s.goto p).lenR = s.lenR := rfl
@[simp] theorem goto_cnt (p : Phase) (s : State) : (s.goto p).cnt = s.cnt := rfl
@[simp] theorem goto_buf (p : Phase) (s : State) : (s.goto p).buf = s.buf := rfl
@[simp] theorem goto_params (p : Phase) (s : State) : (s.goto p).params = s.params := rfl
@[simp] theorem goto_inputs (p : Phase) (s : State) : (s.goto p).inputs = s.inputs := rfl
@[simp] theorem goto_sink (p : Phase) (s : State) : (s.goto p).sink = s.sink := rfl
@[simp] theorem goto_draws (p : Phase) (s : State) : (s.goto p).draws = s.draws := rfl

@[simp] theorem discard_st (s : State) : (discard s).st = .hunt := rfl
@[simp] theorem discard_modeL (s : State) : (discard s).modeL = s.modeL := rfl
@[simp] theorem discard_opcR (s : State) : (discard s).opcR = s.opcR := rfl
@[simp] theorem discard_lenR (s : State) : (discard s).lenR = s.lenR := rfl
@[simp] theorem discard_cnt (s : State) : (discard s).cnt = s.cnt := rfl
@[simp] theorem discard_buf (s : State) : (discard s).buf = s.buf := rfl
@[simp] theorem discard_params (s : State) : (discard s).params = s.params := rfl
@[simp] theorem discard_inputs (s : State) : (discard s).inputs = s.inputs := rfl
@[simp] theorem discard_sink (s : State) : (discard s).sink = s.sink := rfl
@[simp] theorem discard_draws (s : State) : (discard s).draws = s.draws := rfl

@[simp] theorem latchOpcode_st (op : Byte) (s : State) : (latchOpcode op s).st = s.st := rfl
@[simp] theorem latchOpcode_modeL (op : Byte) (s : State) : (latchOpcode op s).modeL = s.edge.mode := rfl
@[simp] theorem latchOpcode_opcR (op : Byte) (s : State) : (latchOpcode op s).opcR = op := rfl
@[simp] theorem latchOpcode_lenR (op : Byte) (s : State) : (latchOpcode op s).lenR = s.lenR := rfl
@[simp] theorem latchOpcode_cnt (op : Byte) (s : State) : (latchOpcode op s).cnt = 0 := rfl
@[simp] theorem latchOpcode_buf (op : Byte) (s : State) : (latchOpcode op s).buf = s.buf := rfl
@[simp] theorem latchOpcode_params (op : Byte) (s : State) : (latchOpcode op s).params = s.params := rfl
@[simp] theorem latchOpcode_inputs (op : Byte) (s : State) : (latchOpcode op s).inputs = s.inputs.tail := rfl
@[simp] theorem latchOpcode_sink (op : Byte) (s : State) : (latchOpcode op s).sink = s.sink := rfl
@[simp] theorem latchOpcode_draws (op : Byte) (s : State) : (latchOpcode op s).draws = s.draws := rfl

@[simp] theorem storeByte_st (b : Byte) (s : State) : (storeByte b s).st = s.st := rfl
@[simp] theorem storeByte_modeL (b : Byte) (s : State) : (storeByte b s).modeL = s.modeL := rfl
@[simp] theorem storeByte_opcR (b : Byte) (s : State) : (storeByte b s).opcR = s.opcR := rfl
@[simp] theorem storeByte_lenR (b : Byte) (s : State) : (storeByte b s).lenR = s.lenR := rfl
@[simp] theorem storeByte_cnt (b : Byte) (s : State) : (storeByte b s).cnt = s.cnt + 1 := rfl
@[simp] theorem storeByte_buf (b : Byte) (s : State) : (storeByte b s).buf = s.buf.setIfInBounds s.cnt.toNat b := rfl
@[simp] theorem storeByte_params (b : Byte) (s : State) : (storeByte b s).params = s.params := rfl
@[simp] theorem storeByte_inputs (b : Byte) (s : State) : (storeByte b s).inputs = s.inputs.tail := rfl
@[simp] theorem storeByte_sink (b : Byte) (s : State) : (storeByte b s).sink = s.sink := rfl
@[simp] theorem storeByte_draws (b : Byte) (s : State) : (storeByte b s).draws = s.draws := rfl

@[simp] theorem handOver_st (s : State) : (handOver s).st = .hunt := rfl
@[simp] theorem handOver_modeL (s : State) : (handOver s).modeL = s.modeL := rfl
@[simp] theorem handOver_opcR (s : State) : (handOver s).opcR = s.opcR := rfl
@[simp] theorem handOver_lenR (s : State) : (handOver s).lenR = s.lenR := rfl
@[simp] theorem handOver_cnt (s : State) : (handOver s).cnt = s.cnt := rfl
@[simp] theorem handOver_buf (s : State) : (handOver s).buf = s.buf := rfl
@[simp] theorem handOver_params (s : State) : (handOver s).params = s.params := rfl
@[simp] theorem handOver_inputs (s : State) : (handOver s).inputs = s.inputs.tail := rfl
@[simp] theorem handOver_sink (s : State) : (handOver s).sink = s.sink ++ s.record.toList := rfl
@[simp] theorem handOver_draws (s : State) : (handOver s).draws = s.draws := rfl

@[simp] theorem resetEdge_st (s : State) : (resetEdge s).st = .hunt := rfl
@[simp] theorem resetEdge_modeL (s : State) : (resetEdge s).modeL = Config.resetMode s.draws := rfl
@[simp] theorem resetEdge_opcR (s : State) : (resetEdge s).opcR = Config.resetOpcode s.draws := rfl
@[simp] theorem resetEdge_lenR (s : State) : (resetEdge s).lenR = Config.resetLen s.draws := rfl
@[simp] theorem resetEdge_cnt (s : State) : (resetEdge s).cnt = Config.resetCnt s.draws := rfl
@[simp] theorem resetEdge_buf (s : State) : (resetEdge s).buf = Config.resetBuf s.draws := rfl
@[simp] theorem resetEdge_params (s : State) : (resetEdge s).params = s.params := rfl
@[simp] theorem resetEdge_inputs (s : State) : (resetEdge s).inputs = s.inputs.tail := rfl
@[simp] theorem resetEdge_sink (s : State) : (resetEdge s).sink = s.sink := rfl
@[simp] theorem resetEdge_draws (s : State) : (resetEdge s).draws = s.draws + 1 := rfl

end Sys2Proof.Machine
end

