-- ==== Sys2Proof/Laws/Ops.lean ====
section
/-! SUPPORT. One lemma for each shared operation that says once everything it can do; later proofs cite it instead of
unfolding the operation. -/

namespace Sys2Proof.Machine

/-- A class-1 event is `Discard()`. -/
theorem raise_class1 {e : Event} (h : e.errorClass = 1) (s : State) : raise e s = discard s := by
  cases e <;> first | rfl | simp [Event.errorClass] at h

theorem invalidEvent_class (k : Option Kind) : (invalidEvent k).errorClass = 1 := by
  unfold invalidEvent; split <;> rfl

/-- The frame decision sets `ST` and nothing else. -/
theorem decideFrame_eq (s : State) :
    decideFrame s = { s with st := if s.frameValid = true then .out else .hunt } := by
  unfold decideFrame
  by_cases h : s.frameValid = true
  · simp [h, State.goto]
  · simp [h, raise_class1 (invalidEvent_class _), discard, State.goto]

/-- The decision of a valid frame. -/
theorem decideFrame_valid {s : State} (h : s.frameValid = true) : decideFrame s = { s with st := .out } := by
  rw [decideFrame_eq, if_pos h]

/-- An X10_SENT frame of length 0 has a message. -/
theorem x10SentMessage_zero (P : Payload) : (x10SentMessage 0 P).isSome = true := by
  simp [x10SentMessage, x10Dec]

/-- USER_RESET is the one message kind of length 0. -/
theorem msgTable_zero : ∀ r ∈ msgTable, r.2.1 = 0 → r.2.2 = .userReset := by decide

theorem lookup_msg_zero {p : Params} {op : Byte} {k : Kind} (h : lookup p .msg op = .entry 0 k) :
    k = .msg .userReset := by
  simp only [lookup] at h
  split at h
  · rename_i len mk hl
    injection h with hlen hk
    obtain ⟨l₁, l₂, hm, -⟩ := List.lookup_eq_some_iff.1 hl
    have := msgTable_zero (op, len, mk) (by rw [hm]; simp) hlen
    rw [← hk]; exact congrArg Kind.msg this
  · cases h

/-- A frame of length 0 is valid (40_sync.md R96). -/
theorem valid_zero {p : Params} {m : Mode} {op : Byte} {k : Kind} (h : lookup p m op = .entry 0 k) (P : Payload) :
    valid p m op P = true := by
  cases m with
  | msg => rw [lookup_msg_zero h] at h; simp only [valid, h]
  | rsp =>
    unfold valid
    rw [h]
    split <;> rename_i hk
    all_goals first
      | rfl
      | (injection hk with hl hk; subst hl hk; exact x10SentMessage_zero P)
      | (injection hk with hl hk; subst hk; simp only [lookup] at h; split at h <;> cases h)

theorem acceptOpcode_none {op : Byte} {s : State} (h : lookup s.params s.edge.mode op = .none) :
    acceptOpcode op s = { s with
      st := .hunt, opcR := op, modeL := s.edge.mode, cnt := 0, lenR := 0, inputs := s.inputs.tail } := by
  simp [acceptOpcode, h, raise, discard, State.goto, latchOpcode]

theorem acceptOpcode_unsupported {op : Byte} {s : State} (h : lookup s.params s.edge.mode op = .unsupported) :
    acceptOpcode op s = { s with
      st := .out, opcR := op, modeL := .rsp, cnt := 0, lenR := 0, inputs := s.inputs.tail } := by
  simp [acceptOpcode, h, raise, latchOpcode]

theorem acceptOpcode_zero {op : Byte} {s : State} {k : Kind} (h : lookup s.params s.edge.mode op = .entry 0 k) :
    acceptOpcode op s = { s with
      st := .out, opcR := op, modeL := s.edge.mode, cnt := 0, lenR := 0, inputs := s.inputs.tail } := by
  simp only [acceptOpcode, h, latchOpcode, if_true]
  exact decideFrame_valid (valid_zero h _)

theorem acceptOpcode_entry {op : Byte} {s : State} {len : Len} {k : Kind}
    (h : lookup s.params s.edge.mode op = .entry len k) (hl : len ≠ 0) :
    acceptOpcode op s = { s with
      st := .pay, opcR := op, modeL := s.edge.mode, cnt := 0, lenR := len, inputs := s.inputs.tail } := by
  simp only [acceptOpcode, h, latchOpcode, if_neg hl]

/-- A payload edge inside the buffer. -/
theorem takePayload_eq {b : Byte} {s : State} (h : s.cnt.toNat < 20) : takePayload b s = .next (afterPayload b s) := by
  have hm : s.cnt.toNat < maxPayload := h
  by_cases hc : s.cnt + 1 = s.lenR
  · have ht : (storeByte b s).cnt = (storeByte b s).lenR := hc
    simp only [takePayload, if_pos hm, if_pos ht, decideFrame_eq, afterPayload, if_pos hc]; rfl
  · have ht : ¬ (storeByte b s).cnt = (storeByte b s).lenR := hc
    simp only [takePayload, if_pos hm, if_neg ht, afterPayload, if_neg hc]; rfl

/-- A payload edge answers a next state only inside the buffer, and then this one. -/
theorem takePayload_next {b : Byte} {s t : State} (h : takePayload b s = .next t) :
    s.cnt.toNat < 20 ∧ t = afterPayload b s := by
  by_cases hc : s.cnt.toNat < 20
  · rw [takePayload_eq hc] at h; exact ⟨hc, by injection h with h; exact h.symm⟩
  · simp [takePayload, maxPayload, hc] at h

theorem takePayload_fault {b : Byte} {s : State} (h : ¬ s.cnt.toNat < 20) : takePayload b s = .fault .bufferIndex := by
  simp [takePayload, maxPayload, h]

theorem runFrame_accept {k : Kind} {op : Byte} {s : State} (hs : s.st = .opc)
    (hk : lookupKind s.params s.edge.mode op = some k) : runFrame k (.accept op) s = .next (acceptOpcode op s) := by
  simp [runFrame, State.atOpcode, hs, hk]

theorem runFrame_payload {k : Kind} {b : Byte} {s : State} (hs : s.st = .pay) (hk : s.kind = some k) :
    runFrame k (.payload b) s = takePayload b s := by
  simp [runFrame, State.inPayload, hs, hk]

theorem runCommand_select {c1 : Byte} {s : State} {k : Kind} {j : Nat} (hs : s.st = .pay) (hk : s.kind = some k)
    (hj : commandIndex k = some j) (hc : s.cnt.toNat = j) : runCommand c1 .select s = takePayload c1 s := by
  simp [runCommand, State.selectorIndex, hs, hk, hj, hc]

theorem runCommand_data {c1 c2 : Byte} {s : State} {k : Kind} {j : Nat} (hs : s.st = .pay) (hk : s.kind = some k)
    (hj : commandIndex k = some j) (hc : s.cnt.toNat = j + 1) (hp : s.previous = c1) :
    runCommand c1 (.data c2) s = takePayload c2 s := by
  simp [runCommand, State.selectorIndex, hs, hk, hj, hc, hp]

theorem runButton_eq {bt : Button × ButtonAction} {b : Byte} {s : State} (hb : buttonByte s.params bt = some b)
    (hs : s.st = .pay) (hk : s.kind = some (.msg .buttonEvent)) (hc : s.cnt = 0) :
    runButton bt s = takePayload b s := by
  simp [runButton, hb, State.inPayload, hs, hk, hc]

theorem runX10Flag_eq {flag : Byte} {s : State} (hs : s.st = .pay)
    (hk : s.kind = some (.msg .x10Received) ∨ s.kind = some (.rsp .x10Sent)) (hc : s.cnt = 1) :
    runX10Flag flag s = takePayload flag s := by
  simp only [runX10Flag, State.inPayload, hs, hc]
  rcases hk with h | h <;> simp [h]

/-- A frame row that goes on took its opcode in OPC or a payload byte of its kind in PAY. -/
theorem runFrame_next {k : Kind} {e : FrameEdge} {s t : State} (h : runFrame k e s = .next t) :
    (∃ op, e = .accept op ∧ s.st = .opc ∧ lookupKind s.params s.edge.mode op = some k ∧ t = acceptOpcode op s) ∨
    (∃ b, e = .payload b ∧ s.st = .pay ∧ s.kind = some k ∧ s.cnt.toNat < 20 ∧ t = afterPayload b s) := by
  cases e with
  | accept op =>
    by_cases hg : s.atOpcode k op = true
    · simp only [runFrame, hg, if_true] at h
      simp [State.atOpcode] at hg
      exact .inl ⟨op, rfl, hg.1, hg.2, by injection h with h; exact h.symm⟩
    · simp [runFrame, hg] at h
  | payload b =>
    by_cases hg : s.inPayload k = true
    · simp only [runFrame, hg, if_true] at h
      simp [State.inPayload] at hg
      exact .inr ⟨b, rfl, hg.1, hg.2, takePayload_next h⟩
    · simp [runFrame, hg] at h

/-- A command row that goes on took a payload byte in PAY. -/
theorem runCommand_next {c1 : Byte} {e : CmdEdge} {s t : State} (h : runCommand c1 e s = .next t) :
    s.st = .pay ∧ s.cnt.toNat < 20 ∧ t = afterPayload (e.byte c1) s := by
  have hs : ∀ j, s.selectorIndex = some j → s.st = .pay := by
    intro j hj; by_contra hn; simp [State.selectorIndex, hn] at hj
  cases e with
  | select =>
    simp only [runCommand] at h
    split at h
    · rename_i hg; exact ⟨hs _ hg, takePayload_next h⟩
    · cases h
  | data c2 =>
    simp only [runCommand] at h
    split at h
    · rename_i hg; exact ⟨hs _ hg.2.1, takePayload_next h⟩
    · cases h

/-- A button row that goes on took its byte as the payload of a button event. -/
theorem runButton_next {bt : Button × ButtonAction} {s t : State} (h : runButton bt s = .next t) :
    ∃ b, buttonByte s.params bt = some b ∧ s.st = .pay ∧ s.kind = some (.msg .buttonEvent) ∧ s.cnt.toNat < 20 ∧
      t = afterPayload b s := by
  unfold runButton at h
  split at h
  · rename_i b hb
    split at h
    · rename_i hg
      simp [State.inPayload] at hg
      exact ⟨b, hb, hg.1.1, hg.1.2, takePayload_next h⟩
    · cases h
  · cases h

/-- An X10 flag row that goes on took its flag as payload byte 1 of a frame that carries an X10 message. -/
theorem runX10Flag_next {flag : Byte} {s t : State} (h : runX10Flag flag s = .next t) :
    s.st = .pay ∧ s.cnt = 1 ∧ t = afterPayload flag s := by
  unfold runX10Flag at h
  split at h
  · rename_i hg
    obtain ⟨hg, hc⟩ := hg
    refine ⟨?_, hc, (takePayload_next h).2⟩
    rcases hg with hg | hg <;> simp [State.inPayload] at hg <;> exact hg.1
  · cases h

/-- Inside the buffer the bounded write is the plain write. -/
theorem setIfInBounds_eq_set {n : Nat} {α : Type} (v : Vector α n) (i : Nat) (x : α) (h : i < n) :
    v.setIfInBounds i x = v.set i x h := by
  ext j hj
  simp [Vector.getElem_setIfInBounds, Vector.getElem_set]

/-- The payload reads the frame's own bytes and no other byte of the buffer (10_state.md R31). -/
theorem payloadOf_congr {op : Byte} {b c : Vector Byte 20} {len : Len}
    (h : b.toList.take len.toNat = c.toList.take len.toNat) : payloadOf op b len = payloadOf op c len := by
  funext i
  unfold payloadOf
  rw [h]
  split
  · rename_i hi
    have := congrArg (·.getD i 0x00) h
    simpa [List.getD_eq_getElem?_getD, List.getElem?_take, hi] using this
  · rfl

/-- The payload edge that completes a valid frame. -/
theorem afterPayload_last {b : Byte} {s : State} {n : Nat} (hn : n < 20) (hc : s.cnt.toNat = n)
    (hl : s.cnt + 1 = s.lenR)
    (hv : valid s.params s.modeL s.opcR (payloadOf s.opcR (s.buf.set n b) s.lenR) = true) :
    afterPayload b s = { s with
      st := .out, buf := s.buf.set n b, cnt := s.lenR, inputs := s.inputs.tail } := by
  subst hc
  have hb := setIfInBounds_eq_set s.buf s.cnt.toNat b hn
  unfold afterPayload
  rw [hb, if_pos hl, if_pos hv, hl]

/-- The payload edge that completes a frame the validity check refuses. -/
theorem afterPayload_discard {b : Byte} {s : State} {n : Nat} (hn : n < 20) (hc : s.cnt.toNat = n)
    (hl : s.cnt + 1 = s.lenR)
    (hv : valid s.params s.modeL s.opcR (payloadOf s.opcR (s.buf.set n b) s.lenR) = false) :
    afterPayload b s = { s with
      st := .hunt, buf := s.buf.set n b, cnt := s.lenR, inputs := s.inputs.tail } := by
  subst hc
  have hb := setIfInBounds_eq_set s.buf s.cnt.toNat b hn
  have hv' : ¬ valid s.params s.modeL s.opcR (payloadOf s.opcR (s.buf.set s.cnt.toNat b) s.lenR) = true := by
    rw [hv]; exact Bool.false_ne_true
  unfold afterPayload
  rw [hb, if_pos hl, if_neg hv', hl]

/-- The hand-over as one record update. -/
theorem handOver_eq (s : State) :
    handOver s = { s with st := .hunt, sink := s.sink ++ s.record.toList, inputs := s.inputs.tail } := rfl

end Sys2Proof.Machine
end

