-- ==== Sys2Proof/Laws/Decode.lean ====
section
/-! SUPPORT. The tables, the decoder and the dispatch: what a lookup can answer, what a well-formed parameter set gives,
and that the row the decoder reads runs the operation of its kind. -/

namespace Sys2Proof.Machine

/-- The parts of R7, from the one check. -/
theorem Params_ok_parts {p : Params} (h : p.ok = true) :
    p.lengthsFit = true ∧ p.onlyUnsupported = true ∧ p.spaceKept = true ∧ p.buttonsComplete = true ∧
      p.rolesUnique = true ∧ p.tablesAreMaps = true := by
  simpa [Params.ok, Bool.and_eq_true, and_assoc] using h

theorem lookup_mem {α β : Type} [BEq α] [LawfulBEq α] {l : List (α × β)} {a : α} {b : β}
    (h : l.lookup a = some b) : (a, b) ∈ l := by
  induction l with
  | nil => cases h
  | cons r l ih =>
    obtain ⟨x, y⟩ := r
    simp only [List.lookup] at h
    split at h
    · rename_i he
      have : a = x := by simpa using he
      injection h with h
      subst h; subst this
      exact List.mem_cons_self
    · exact List.mem_cons_of_mem _ (ih h)

/-- In a table that lists no key twice, every row is found. -/
theorem lookup_of_mem {α β : Type} [BEq α] [LawfulBEq α] {l : List (α × β)} {a : α} {b : β}
    (hd : distinct (l.map (·.1)) = true) (h : (a, b) ∈ l) : l.lookup a = some b := by
  induction l with
  | nil => cases h
  | cons r l ih =>
    obtain ⟨x, y⟩ := r
    simp only [List.map_cons, distinct, Bool.and_eq_true, Bool.not_eq_true'] at hd
    rcases List.mem_cons.mp h with he | hm
    · injection he with h1 h2
      subst h1; subst h2
      simp [List.lookup]
    · have hx : a ≠ x := by
        rintro rfl
        have : (l.map (·.1)).contains a = true := by
          simp only [List.contains_iff_mem, List.mem_map]
          exact ⟨(a, b), hm, rfl⟩
        rw [this] at hd; exact absurd hd.1 (by simp)
      have hb : (a == x) = false := by simpa using hx
      simp only [List.lookup, hb]
      exact ih hd.2 hm

/-- What the response table gives an opcode that has an entry. -/
theorem lookup_rsp_entry {p : Params} {op : Byte} {len : Len} {k : Kind} (h : lookup p .rsp op = .entry len k) :
    ∃ rk, k = .rsp rk ∧ p.respTable.lookup op = some (.entry len rk) := by
  simp only [lookup] at h
  split at h
  · rename_i l rk he
    injection h with h1 h2
    subst h1; subst h2
    exact ⟨rk, rfl, he⟩
  · cases h
  · cases h

/-- What the message table gives an opcode that has an entry. -/
theorem lookup_msg_entry {p : Params} {op : Byte} {len : Len} {k : Kind} (h : lookup p .msg op = .entry len k) :
    ∃ mk, k = .msg mk ∧ msgTable.lookup op = some (len, mk) := by
  simp only [lookup] at h
  split at h
  · rename_i l mk he
    injection h with h1 h2
    subst h1; subst h2
    exact ⟨mk, rfl, he⟩
  · cases h

theorem lookup_msg_not_unsupported (p : Params) (op : Byte) : lookup p .msg op ≠ .unsupported := by
  intro h
  simp only [lookup] at h
  split at h <;> cases h

/-- Only `0x62` in mode RSP is UNSUPPORTED (00_scope.md R7 (b)). -/
theorem lookup_unsupported_iff {p : Params} (hp : p.ok = true) (m : Mode) (op : Byte) :
    lookup p m op = .unsupported ↔ m = .rsp ∧ op = 0x62 := by
  obtain ⟨-, hu, -⟩ := Params_ok_parts hp
  simp only [Params.onlyUnsupported, Bool.and_eq_true, beq_iff_eq, List.all_eq_true] at hu
  cases m with
  | msg => simpa using lookup_msg_not_unsupported p op
  | rsp =>
    constructor
    · intro h
      simp only [lookup] at h
      split at h
      · cases h
      · rename_i he
        have := hu.2 _ (lookup_mem he)
        simpa using this
      · cases h
    · rintro ⟨-, rfl⟩
      simp only [lookup, hu.1]

/-- Every length a well-formed instance looks up fits the buffer (R7 (a), R68). -/
theorem lookup_length_le {p : Params} (hp : p.ok = true) {m : Mode} {op : Byte} {len : Len} {k : Kind}
    (h : lookup p m op = .entry len k) : len.toNat ≤ 20 := by
  cases m with
  | msg =>
    obtain ⟨mk, -, he⟩ := lookup_msg_entry h
    have hall : ∀ r ∈ msgTable, r.2.1.toNat ≤ 20 := by decide
    exact hall _ (lookup_mem he)
  | rsp =>
    obtain ⟨rk, -, he⟩ := lookup_rsp_entry h
    obtain ⟨hl, -⟩ := Params_ok_parts hp
    simp only [Params.lengthsFit, List.all_eq_true] at hl
    exact of_decide_eq_true (hl _ (lookup_mem he))

/-- USER_RESET stands at `0x55` of the message table only (R68). -/
theorem lookup_userReset {p : Params} {m : Mode} {op : Byte} {len : Len}
    (h : lookup p m op = .entry len (.msg .userReset)) : m = .msg ∧ op = 0x55 ∧ len = 0 := by
  cases m with
  | msg =>
    obtain ⟨mk, hk, he⟩ := lookup_msg_entry h
    injection hk with hk; subst hk
    have hall : ∀ r ∈ msgTable, r.2.2 = .userReset → r.1 = 0x55 ∧ r.2.1 = 0 := by decide
    exact ⟨rfl, hall _ (lookup_mem he) rfl⟩
  | rsp =>
    obtain ⟨rk, hk, -⟩ := lookup_rsp_entry h
    cases hk

theorem lookupKind_eq {p : Params} {m : Mode} {op : Byte} {k : Kind} :
    lookupKind p m op = some k ↔ ∃ len, lookup p m op = .entry len k := by
  unfold lookupKind
  cases h : lookup p m op <;> simp

/-- A byte that is no command byte selects no command row. -/
theorem cmdInstr_none {c1 : Byte} {e : CmdEdge} (h : c1 ∉ commandBytes) : cmdInstr c1 e = none := by
  simp only [commandBytes, List.mem_cons, List.not_mem_nil, or_false, not_or] at h
  obtain ⟨h1, h2, h3, h4, h5, h6, h7, h8, h9, h10, h11, h12, h13⟩ := h
  rw [cmdInstr, if_neg h1, if_neg h2, if_neg h3, if_neg h4, if_neg h5, if_neg h6, if_neg h7, if_neg h8, if_neg h9,
    if_neg h10, if_neg h11, if_neg h12, if_neg h13]

/-- A command row runs as a command pair. -/
theorem cmdInstr_exec {c1 : Byte} {e : CmdEdge} {i : Instr} (h : cmdInstr c1 e = some i) (s : State) :
    exec i s = runCommand c1 e s := by
  have hex : ∀ c : Byte, ∀ e' j, cmdInstr c e' = some j → exec j s = runCommand c e' s := by
    intro c e' j hj
    by_cases hc : c ∈ commandBytes
    · simp only [commandBytes, List.mem_cons, List.not_mem_nil, or_false] at hc
      rcases hc with rfl | rfl | rfl | rfl | rfl | rfl | rfl | rfl | rfl | rfl | rfl | rfl | rfl <;>
        (cases hj; rfl)
    · rw [cmdInstr_none hc] at hj; cases hj
  exact hex c1 e i h

/-- A frame row's payload edge runs as a frame edge of its kind. -/
theorem frameInstr_exec_payload {k : Kind} {b : Byte} {i : Instr} (h : frameInstr k (.payload b) = some i) (s : State) :
    exec i s = runFrame k (.payload b) s := by
  unfold frameInstr at h
  split at h <;> first
    | (injection h with h; subst h; rfl)
    | cases h

/-- A frame row's opcode edge runs as a frame edge of its kind. -/
theorem frameInstr_exec_accept {k : Kind} {op : Byte} {i : Instr} (h : frameInstr k (.accept op) = some i)
    (hu : k = .msg .userReset → op = 0x55) (s : State) : exec i s = runFrame k (.accept op) s := by
  unfold frameInstr at h
  split at h <;> first
    | (injection h with h; subst h; rfl)
    | (injection h with h; subst h; rw [hu rfl]; rfl)
    | cases h

theorem buttonInstr_exec (bt : Button × ButtonAction) (s : State) : exec (buttonInstr bt) s = runButton bt s := by
  obtain ⟨b, a⟩ := bt
  cases b <;> cases a <;> rfl

theorem distinct_nodup {α : Type} [BEq α] [LawfulBEq α] : ∀ l : List α, distinct l = true ↔ l.Nodup
  | [] => by simp [distinct]
  | a :: l => by simp [distinct, distinct_nodup l]

/-- A well-formed `BUTTON_TABLE` is a bijection between its nine bytes and the nine pairs (R7 (d)). -/
theorem buttonByte_iff {p : Params} (hp : p.ok = true) (bt : Button × ButtonAction) (b : Byte) :
    buttonByte p bt = some b ↔ buttonOf p b = some bt := by
  obtain ⟨-, -, -, hb, -, hm⟩ := Params_ok_parts hp
  simp only [Params.tablesAreMaps, Bool.and_eq_true] at hm
  simp only [Params.buttonsComplete, Bool.and_eq_true, beq_iff_eq, List.all_eq_true] at hb
  have hnodup : (p.buttonTable.map (·.2)).Nodup := by
    have hsub : allButtonPairs ⊆ p.buttonTable.map (·.2) := fun x hx => by
      simpa using hb.2 x hx
    have hsp : allButtonPairs.Subperm (p.buttonTable.map (·.2)) :=
      List.subperm_of_subset (by decide) hsub
    have hperm := hsp.perm_of_length_le (by simp [hb.1, allButtonPairs])
    exact hperm.nodup_iff.mp (by decide)
  unfold buttonByte buttonOf
  constructor
  · intro h
    simp only [Option.map_eq_some_iff] at h
    obtain ⟨⟨x, y⟩, hf, rfl⟩ := h
    have hy : y = bt := by simpa using List.find?_some hf
    subst hy
    exact lookup_of_mem hm.1.2 (List.mem_of_find?_eq_some hf)
  · intro h
    have hmem := lookup_mem h
    cases hf : p.buttonTable.find? fun r => r.2 == bt with
    | none =>
      have := List.find?_eq_none.mp hf _ hmem
      simp at this
    | some r =>
      obtain ⟨x, y⟩ := r
      have hy : y = bt := by simpa using List.find?_some hf
      subst hy
      have hx := List.mem_of_find?_eq_some hf
      have := List.inj_on_of_nodup_map hnodup hx hmem rfl
      injection this with h1 _
      simp [h1]

/-- Every pair has a byte in a well-formed `BUTTON_TABLE`. -/
theorem buttonByte_isSome {p : Params} (hp : p.ok = true) (bt : Button × ButtonAction) :
    ∃ b, buttonByte p bt = some b := by
  obtain ⟨-, -, -, hb, -⟩ := Params_ok_parts hp
  simp only [Params.buttonsComplete, Bool.and_eq_true, beq_iff_eq, List.all_eq_true] at hb
  have hbt : bt ∈ allButtonPairs := by
    obtain ⟨b, a⟩ := bt
    cases b <;> cases a <;> decide
  have := hb.2 bt hbt
  simp only [List.contains_iff_mem, List.mem_map] at this
  obtain ⟨r, hr, hr2⟩ := this
  unfold buttonByte
  cases hf : p.buttonTable.find? fun r => r.2 == bt with
  | none =>
    have := List.find?_eq_none.mp hf _ hr
    simp [hr2] at this
  | some r => exact ⟨r.1, rfl⟩

/-- A command byte selects a command row. -/
theorem cmdInstr_some {c1 : Byte} (h : c1 ∈ commandBytes) (e) : ∃ i, cmdInstr c1 e = some i := by
  simp only [commandBytes, List.mem_cons, List.not_mem_nil, or_false] at h
  rcases h with rfl | rfl | rfl | rfl | rfl | rfl | rfl | rfl | rfl | rfl | rfl | rfl | rfl <;> exact ⟨_, rfl⟩

/-- A payload byte is its frame's exactly where no row of its own claims it. -/
theorem ownInstr_none_iff {p k i prev b} : ownInstr p k i prev b = none ↔ ownRow p k i prev b = false := by
  unfold ownInstr ownRow
  have hsel : ∀ c e, (cmdInstr c e = none ↔ commandBytes.contains c = false) := by
    intro c e
    by_cases h : c ∈ commandBytes
    · obtain ⟨j, hj⟩ := cmdInstr_some h e; simp [hj, h]
    · simp [cmdInstr_none h, h]
  have hx : commandIndex k ≠ none → carriesX10 k = false ∧ (k == .msg .buttonEvent) = false := by
    unfold commandIndex carriesX10; split <;> simp
  by_cases h1 : commandIndex k = some i
  · have hi : ¬ (i ≠ 0 ∧ commandIndex k = some (i - 1)) := by rintro ⟨a, b⟩; rw [h1] at b; injection b; omega
    obtain ⟨x1, x2⟩ := hx (by simp [h1])
    rw [if_pos h1, hsel]
    simp [h1, x1, x2]
    intro hc h; omega
  rw [if_neg h1]
  by_cases h2 : i ≠ 0 ∧ commandIndex k = some (i - 1)
  · obtain ⟨x1, x2⟩ := hx (by simp [h2.2])
    rw [if_pos h2, hsel]
    simp [h1, x1, x2]
    simp [h2.1, h2.2]
  rw [if_neg h2]
  have e1 : (commandIndex k == some i) = false := by simpa using h1
  have e2 : (i != 0 && commandIndex k == some (i - 1)) = false := by simpa using h2
  simp only [e1, e2, Bool.false_and, Bool.false_or]
  by_cases h3 : k = .msg .buttonEvent ∧ i = 0
  · rw [if_pos h3]
    obtain ⟨rfl, rfl⟩ := h3
    simp [carriesX10]
  rw [if_neg h3]
  have e3 : (k == .msg .buttonEvent && i == 0 && (buttonOf p b).isSome) = false := by
    simp; intro a b; exact absurd ⟨a, b⟩ h3
  simp only [e3, Bool.false_or]
  by_cases h4 : carriesX10 k = true ∧ i = 1
  · rw [if_pos h4]
    simp only [h4.1, h4.2, Bool.true_and]
    by_cases h5 : b = 0x00
    · simp [h5]
    · rw [if_neg h5]
      by_cases h6 : b = 0x80
      · simp [h6]
      · rw [if_neg h6]
        have : (b == 0x00) = false := by simpa using h5
        have h' : (b == 0x80) = false := by simpa using h6
        simp only [this, h']; simp
  · rw [if_neg h4]
    simp; intro a b; exact absurd ⟨a, b⟩ h4

end Sys2Proof.Machine
end

