-- ==== Sys2Proof/Laws/PerInstr.lean ====
section
/-! SUPPORT. One lemma per instruction: where a well-formed instruction stands is the phase its edge is taken in
(10_state.md R36). -/

namespace Sys2Proof.Machine

/-- A frame edge that is well formed at a position stands in the phase of that edge. -/
theorem frameWellFormed_phase {p : Params} {k : Kind} {pos : Position} {e : FrameEdge}
    (h : frameWellFormed p k pos e = true) :
    positionPhase pos = edgePhase e := by
  unfold frameWellFormed at h
  split at h
  · rfl
  · rfl
  · cases h

/-- A command edge stands in a payload. -/
theorem cmdWellFormed_phase {c1 : Byte} {pos : Position} {e : CmdEdge} (h : cmdWellFormed c1 pos e = true) :
    positionPhase pos = .pay := by
  unfold cmdWellFormed at h
  split at h
  · rfl
  · rfl
  · cases h

/-- A button byte stands in a payload. -/
theorem buttonWellFormed_phase {p : Params} {bt : Button × ButtonAction} {pos : Position}
    (h : buttonWellFormed p bt pos = true) : positionPhase pos = .pay := by
  unfold buttonWellFormed at h
  split at h
  · rfl
  · cases h

/-- An X10 flag stands in a payload. -/
theorem x10FlagWellFormed_phase {pos : Position} (h : x10FlagWellFormed pos = true) : positionPhase pos = .pay := by
  unfold x10FlagWellFormed at h
  split at h
  · rfl
  · cases h

end Sys2Proof.Machine

namespace Sys2Proof.Laws.Placed

open Sys2Proof.Machine

/-- A well-formed instruction stands where its edge is taken. -/
def Statement (i : Instr) : Prop :=
  ∀ (p : Params) (pos : Position), i.wellFormed p pos = true → positionPhase pos = rowPhase i

theorem marker : Statement .marker := fun _ _ h => congrArg positionPhase (eq_of_beq h)
theorem receivedStd (e : FrameEdge) : Statement (.receivedStd e) := fun _ _ h => frameWellFormed_phase h
theorem receivedExt (e : FrameEdge) : Statement (.receivedExt e) := fun _ _ h => frameWellFormed_phase h
theorem x10Received (e : FrameEdge) : Statement (.x10Received e) := fun _ _ h => frameWellFormed_phase h
theorem linkComplete (e : FrameEdge) : Statement (.linkComplete e) := fun _ _ h => frameWellFormed_phase h
theorem buttonEvent (e : FrameEdge) : Statement (.buttonEvent e) := fun _ _ h => frameWellFormed_phase h
theorem userReset : Statement .userReset := fun _ _ h => congrArg positionPhase (eq_of_beq h)
theorem linkCleanupFailed (e : FrameEdge) : Statement (.linkCleanupFailed e) := fun _ _ h => frameWellFormed_phase h
theorem linkRecordResponse (e : FrameEdge) : Statement (.linkRecordResponse e) := fun _ _ h => frameWellFormed_phase h
theorem linkCleanupStatus (e : FrameEdge) : Statement (.linkCleanupStatus e) := fun _ _ h => frameWellFormed_phase h
theorem databaseRecordFound (e : FrameEdge) : Statement (.databaseRecordFound e) := fun _ _ h => frameWellFormed_phase h
theorem getInfo (e : FrameEdge) : Statement (.getInfo e) := fun _ _ h => frameWellFormed_phase h
theorem linkCommandEcho (e : FrameEdge) : Statement (.linkCommandEcho e) := fun _ _ h => frameWellFormed_phase h
theorem unsupported : Statement .unsupported := fun _ _ h => congrArg positionPhase (eq_of_beq h)
theorem x10Sent (e : FrameEdge) : Statement (.x10Sent e) := fun _ _ h => frameWellFormed_phase h
theorem linkStart (e : FrameEdge) : Statement (.linkStart e) := fun _ _ h => frameWellFormed_phase h
theorem linkCancel (e : FrameEdge) : Statement (.linkCancel e) := fun _ _ h => frameWellFormed_phase h
theorem categorySet (e : FrameEdge) : Statement (.categorySet e) := fun _ _ h => frameWellFormed_phase h
theorem reset (e : FrameEdge) : Statement (.reset e) := fun _ _ h => frameWellFormed_phase h
theorem ackByteSet (e : FrameEdge) : Statement (.ackByteSet e) := fun _ _ h => frameWellFormed_phase h
theorem firstLinkRecord (e : FrameEdge) : Statement (.firstLinkRecord e) := fun _ _ h => frameWellFormed_phase h
theorem nextLinkRecord (e : FrameEdge) : Statement (.nextLinkRecord e) := fun _ _ h => frameWellFormed_phase h
theorem configSet (e : FrameEdge) : Statement (.configSet e) := fun _ _ h => frameWellFormed_phase h
theorem senderLinkRecord (e : FrameEdge) : Statement (.senderLinkRecord e) := fun _ _ h => frameWellFormed_phase h
theorem ledOn (e : FrameEdge) : Statement (.ledOn e) := fun _ _ h => frameWellFormed_phase h
theorem ledOff (e : FrameEdge) : Statement (.ledOff e) := fun _ _ h => frameWellFormed_phase h
theorem linkRecordUpdate (e : FrameEdge) : Statement (.linkRecordUpdate e) := fun _ _ h => frameWellFormed_phase h
theorem nakByteSet (e : FrameEdge) : Statement (.nakByteSet e) := fun _ _ h => frameWellFormed_phase h
theorem ackTwoBytesSet (e : FrameEdge) : Statement (.ackTwoBytesSet e) := fun _ _ h => frameWellFormed_phase h
theorem sleep (e : FrameEdge) : Statement (.sleep e) := fun _ _ h => frameWellFormed_phase h
theorem configGet (e : FrameEdge) : Statement (.configGet e) := fun _ _ h => frameWellFormed_phase h
theorem cmdCancelLinking (e : CmdEdge) : Statement (.cmdCancelLinking e) := fun _ _ h => cmdWellFormed_phase h
theorem cmdBeginLinking (e : CmdEdge) : Statement (.cmdBeginLinking e) := fun _ _ h => cmdWellFormed_phase h
theorem cmdBeginUnlinking (e : CmdEdge) : Statement (.cmdBeginUnlinking e) := fun _ _ h => cmdWellFormed_phase h
theorem cmdIdRequest (e : CmdEdge) : Statement (.cmdIdRequest e) := fun _ _ h => cmdWellFormed_phase h
theorem cmdOn (e : CmdEdge) : Statement (.cmdOn e) := fun _ _ h => cmdWellFormed_phase h
theorem cmdFastOn (e : CmdEdge) : Statement (.cmdFastOn e) := fun _ _ h => cmdWellFormed_phase h
theorem cmdOff (e : CmdEdge) : Statement (.cmdOff e) := fun _ _ h => cmdWellFormed_phase h
theorem cmdFastOff (e : CmdEdge) : Statement (.cmdFastOff e) := fun _ _ h => cmdWellFormed_phase h
theorem cmdBright (e : CmdEdge) : Statement (.cmdBright e) := fun _ _ h => cmdWellFormed_phase h
theorem cmdDim (e : CmdEdge) : Statement (.cmdDim e) := fun _ _ h => cmdWellFormed_phase h
theorem cmdStart (e : CmdEdge) : Statement (.cmdStart e) := fun _ _ h => cmdWellFormed_phase h
theorem cmdStop (e : CmdEdge) : Statement (.cmdStop e) := fun _ _ h => cmdWellFormed_phase h
theorem cmdStatusRequest (e : CmdEdge) : Statement (.cmdStatusRequest e) := fun _ _ h => cmdWellFormed_phase h
theorem btn1Tapped : Statement .btn1Tapped := fun _ _ h => buttonWellFormed_phase h
theorem btn1Held : Statement .btn1Held := fun _ _ h => buttonWellFormed_phase h
theorem btn1Released : Statement .btn1Released := fun _ _ h => buttonWellFormed_phase h
theorem btn2Tapped : Statement .btn2Tapped := fun _ _ h => buttonWellFormed_phase h
theorem btn2Held : Statement .btn2Held := fun _ _ h => buttonWellFormed_phase h
theorem btn2Released : Statement .btn2Released := fun _ _ h => buttonWellFormed_phase h
theorem btn3Tapped : Statement .btn3Tapped := fun _ _ h => buttonWellFormed_phase h
theorem btn3Held : Statement .btn3Held := fun _ _ h => buttonWellFormed_phase h
theorem btn3Released : Statement .btn3Released := fun _ _ h => buttonWellFormed_phase h
theorem x10Unit : Statement .x10Unit := fun _ _ h => x10FlagWellFormed_phase h
theorem x10Command : Statement .x10Command := fun _ _ h => x10FlagWellFormed_phase h

end Sys2Proof.Laws.Placed
end

