-- ==== Sys2Proof/Laws/Step.lean ====
section
/-! SUPPORT. The step: the row that the decoder reads does what the FSD does with the byte, whatever row it is. -/

namespace Sys2Proof.Machine

/-- The FSD's rule for a transferred byte, without decoding. -/
def rawByte (s : State) : Out :=
  match s.st with
  | .hunt => .next (s.tick.goto .opc)
  | .opc => .next (acceptOpcode s.edge.inData s)
  | .pay => takePayload s.edge.inData s
  | .out => .next s
  | .eos => .next s

theorem commandIndex_pos {k : Kind} {j : Nat} (h : commandIndex k = some j) : j = 3 ∨ j = 1 := by
  unfold commandIndex at h
  split at h <;> simp_all

theorem carriesX10_iff {k : Kind} : carriesX10 k = true ↔ k = .msg .x10Received ∨ k = .rsp .x10Sent := by
  unfold carriesX10
  split <;> simp_all

/-- A button byte of the table, run as its row. -/
theorem buttonInstr_eq {b : Byte} {s : State} (hp : s.params.ok = true) {bt} (h : buttonOf s.params b = some bt)
    (hs : s.st = .pay) (hk : s.kind = some (.msg .buttonEvent)) (hc : s.cnt.toNat = 0) :
    exec (buttonInstr bt) s = takePayload b s := by
  rw [buttonInstr_exec]
  exact runButton_eq ((buttonByte_iff hp bt b).mpr h) hs hk (by simpa using BitVec.eq_of_toNat_eq (y := 0#5) (by simpa using hc))

/-- A payload byte that is a row of its own runs as a payload edge. -/
theorem exec_of_ownInstr {s : State} {k : Kind} {b : Byte} {i : Instr} (hp : s.params.ok = true) (hs : s.st = .pay)
    (hk : s.kind = some k) (h : ownInstr s.params k s.cnt.toNat s.previous b = some i) : exec i s = takePayload b s := by
  unfold ownInstr at h
  by_cases h1 : commandIndex k = some s.cnt.toNat
  · rw [if_pos h1] at h
    rw [cmdInstr_exec h, runCommand_select hs hk h1 rfl]
  rw [if_neg h1] at h
  by_cases h2 : s.cnt.toNat ≠ 0 ∧ commandIndex k = some (s.cnt.toNat - 1)
  · rw [if_pos h2] at h
    rw [cmdInstr_exec h, runCommand_data hs hk h2.2 (by omega) rfl]
  rw [if_neg h2] at h
  by_cases h3 : k = .msg .buttonEvent ∧ s.cnt.toNat = 0
  · rw [if_pos h3] at h
    obtain ⟨bt, hb, rfl⟩ := Option.map_eq_some_iff.mp h
    exact buttonInstr_eq hp hb hs (h3.1 ▸ hk) h3.2
  rw [if_neg h3] at h
  by_cases h4 : carriesX10 k = true ∧ s.cnt.toNat = 1
  · rw [if_pos h4] at h
    have hkx : s.kind = some (.msg .x10Received) ∨ s.kind = some (.rsp .x10Sent) := by
      rcases carriesX10_iff.mp h4.1 with h | h <;> simp [hk, h]
    have hc : s.cnt = 1 := BitVec.eq_of_toNat_eq (by simpa using h4.2)
    by_cases h5 : b = 0x00
    · rw [if_pos h5] at h; cases h; subst h5; exact runX10Flag_eq hs hkx hc
    rw [if_neg h5] at h
    by_cases h6 : b = 0x80
    · rw [if_pos h6] at h; cases h; subst h6; exact runX10Flag_eq hs hkx hc
    rw [if_neg h6] at h; cases h
  · rw [if_neg h4] at h; cases h

/-- The fetched row, run, is the FSD's rule for the byte in its phase. -/
theorem exec_of_fetch {s : State} {i : Instr} (hp : s.params.ok = true) (h : s.fetch = some i) :
    exec i s = rawByte s := by
  unfold State.fetch State.position at h
  unfold rawByte
  cases hst : s.st with
  | hunt =>
    simp only [hst, decode] at h
    by_cases hb : s.edge.inData = markerByte
    · rw [if_pos hb] at h; cases h
      show execMarker s = _
      rw [execMarker, if_pos hst]
    · rw [if_neg hb] at h; cases h
  | opc =>
    simp only [hst, decode] at h
    cases hl : lookup s.params s.edge.mode s.edge.inData with
    | none => simp [hl] at h
    | unsupported =>
      simp only [hl] at h; cases h
      obtain ⟨hm, ho⟩ := (lookup_unsupported_iff hp _ _).mp hl
      show execUnsupported s = _
      rw [ho] at hl
      rw [execUnsupported, if_pos ⟨hst, hl⟩, ho]
    | entry len k =>
      simp only [hl] at h
      rw [frameInstr_exec_accept h (by rintro rfl; exact (lookup_userReset hl).2.1),
        runFrame_accept hst (lookupKind_eq.mpr ⟨len, hl⟩)]
  | pay =>
    simp only [hst] at h
    cases hk : s.kind with
    | none => simp [hk] at h
    | some k =>
      simp only [hk, Option.map_some, decode] at h
      split at h
      · rename_i j hj
        cases h
        exact exec_of_ownInstr hp hst hk hj
      · rw [frameInstr_exec_payload h, runFrame_payload hst hk]
  | out => simp [hst] at h
  | eos => simp [hst] at h

theorem fetch_hunt {s : State} (hst : s.st = .hunt) : s.fetch = if s.edge.inData = 0x02 then some .marker else none := by
  simp only [State.fetch, State.position, hst, decode]; rfl

/-- What a transferred byte does, row or no row. -/
theorem takeByte_exec {s : State} (hp : s.params.ok = true) :
    takeByte exec s = if s.st = .hunt then (if s.edge.inData = 0x02 then .next (s.tick.goto .opc) else .next s.tick)
      else if s.st = .opc then .next (acceptOpcode s.edge.inData s)
      else if s.st = .pay then takePayload s.edge.inData s else .next s.tick := by
  unfold takeByte
  cases hf : s.fetch with
  | some i =>
    simp only
    rw [exec_of_fetch hp hf]
    unfold rawByte
    cases hst : s.st with
    | hunt =>
      rw [fetch_hunt hst] at hf
      by_cases hb : s.edge.inData = 0x02
      · simp [hb]
      · rw [if_neg hb] at hf; cases hf
    | opc => simp
    | pay => simp
    | out => simp [State.fetch, State.position, hst] at hf
    | eos => simp [State.fetch, State.position, hst] at hf
  | none =>
    simp only
    unfold otherByte
    cases hst : s.st with
    | hunt =>
      rw [fetch_hunt hst] at hf
      by_cases hb : s.edge.inData = 0x02
      · rw [if_pos hb] at hf; cases hf
      · simp only [if_true, if_neg hb]
    | opc => simp
    | pay => simp
    | out => simp
    | eos => simp

/-- The opcode edge as one record update, by what the table gives the opcode. -/
theorem acceptOpcode_eq (op : Byte) (s : State) (hu : lookup s.params s.edge.mode op = .unsupported → s.edge.mode = .rsp) :
    acceptOpcode op s =
      (let v : State := { s with inputs := s.inputs.tail, opcR := op, modeL := s.edge.mode, cnt := 0 }
       match lookup s.params s.edge.mode op with
        | .none => { v with lenR := 0, st := .hunt }
        | .unsupported => { v with lenR := 0, st := .out }
        | .entry len _ =>
          if len = 0 then { v with lenR := 0, st := .out }
          else { v with lenR := len, st := .pay }) := by
  cases hl : lookup s.params s.edge.mode op with
  | none => rw [acceptOpcode_none hl]
  | unsupported => rw [acceptOpcode_unsupported hl, hu hl]
  | entry len k =>
    by_cases h0 : len = 0
    · subst h0; rw [acceptOpcode_zero hl]; rfl
    · rw [acceptOpcode_entry hl h0]; simp only [if_neg h0]

end Sys2Proof.Machine
end

