-- ==== Sys2Proof/Tests/Slice0.lean ====
section
/-! SUPPORT. Small tests, each on fixed values: the checks of WellFormed and of the parameter set, the decoder on bytes
written out from the spec's encodings, one edge per instruction against the vectors of spec/95_test_vectors.md, and for
each statement with hypotheses a state and operands that meet them. -/

namespace Sys2Proof.Tests

open Sys2Proof Sys2Proof.Machine

/-! ## States -/

/-- In HUNT, a byte offered. -/
def hunting (b : Byte) : State := { State.reset with inputs := [offer .msg b] }

/-- In OPC, a byte offered with a mode. -/
def selecting (m : Mode) (b : Byte) : State := { State.reset with st := .opc, inputs := [offer m b] }

/-- In PAY, the bytes `bs` of a frame of length `len` taken, a byte offered. -/
def taking (m : Mode) (op : Byte) (len : Len) (bs : List Byte) (b : Byte) : State :=
  { State.reset with
    st := .pay, modeL := m, opcR := op, lenR := len, cnt := BitVec.ofNat 5 bs.length
    buf := bs.zipIdx.foldl (fun v r => v.setIfInBounds r.2 r.1) State.reset.buf
    inputs := [offer m b] }

/-- In OUT with the record of `[0x02, 0x58, b]`, on the edge `e`. -/
def presenting (b : Byte) (e : Edge) : State :=
  { State.reset with st := .out, opcR := 0x58, lenR := 1, cnt := 1, buf := State.reset.buf.setIfInBounds 0 b, inputs := [e] }

/-- In EOS, on the edge `e`. -/
def ended (e : Edge) : State := { State.reset with st := .eos, inputs := [e] }

/-- The state after one edge. -/
def after (s : State) : Option State :=
  match step s with
  | .next t => some t
  | _ => none

/-- `ST` after one edge. -/
def phaseAfter (s : State) : Option Phase :=
  match step s with
  | .next t => some t.st
  | _ => none

/-- The record presented after one edge. -/
def recordAfter (s : State) : Option Record :=
  match step s with
  | .next t => t.record
  | _ => none

/-- The record of a whole message frame: its last payload byte taken on the edge. -/
def msgRecord (op : Byte) (len : Len) (bs : List Byte) (b : Byte) : Option Record := recordAfter (taking .msg op len bs b)

/-- The record of a whole response frame. -/
def rspRecord (op : Byte) (len : Len) (bs : List Byte) (b : Byte) : Option Record := recordAfter (taking .rsp op len bs b)

/-! ## The checks refuse ill-formed terms -/

theorem test_wf_marker_after_marker : Instr.wellFormed defaultParams (.opcode .msg) .marker = false := by decide
theorem test_wf_user_reset_in_rsp : Instr.wellFormed defaultParams (.opcode .rsp) .userReset = false := by decide
theorem test_wf_unsupported_in_msg : Instr.wellFormed defaultParams (.opcode .msg) .unsupported = false := by decide
theorem test_wf_frame_wrong_opcode :
    Instr.wellFormed defaultParams (.opcode .msg) (.receivedStd (.accept 0x51)) = false := by decide
theorem test_wf_frame_payload_in_opcode :
    Instr.wellFormed defaultParams (.opcode .rsp) (.getInfo (.payload 0x60)) = false := by decide
theorem test_wf_frame_byte_of_own_row :
    Instr.wellFormed defaultParams (.payload (.msg .receivedStd) 3 0x00) (.receivedStd (.payload 0x11)) = false := by decide
theorem test_wf_data_byte_of_own_row :
    Instr.wellFormed defaultParams (.payload (.msg .receivedExt) 4 0x11) (.receivedExt (.payload 0x05)) = false := by decide
theorem test_wf_button_byte_of_own_row :
    Instr.wellFormed defaultParams (.payload (.msg .buttonEvent) 0 0x00) (.buttonEvent (.payload 0x02)) = false := by decide
theorem test_wf_x10_flag_of_own_row :
    Instr.wellFormed defaultParams (.payload (.rsp .x10Sent) 1 0x66) (.x10Sent (.payload 0x80)) = false := by decide
theorem test_wf_command_off_its_index :
    Instr.wellFormed defaultParams (.payload (.msg .receivedStd) 2 0x00) (.cmdOn .select) = false := by decide
theorem test_wf_data_after_another_command :
    Instr.wellFormed defaultParams (.payload (.msg .receivedStd) 4 0x13) (.cmdOn (.data 0x05)) = false := by decide
theorem test_wf_button_in_another_frame :
    Instr.wellFormed defaultParams (.payload (.msg .linkCleanupStatus) 0 0x00) .btn1Tapped = false := by decide
theorem test_wf_x10_flag_off_its_index :
    Instr.wellFormed defaultParams (.payload (.msg .x10Received) 0 0x00) .x10Unit = false := by decide
theorem test_wf_group_zero : Command.wellFormed (.off (some 0x00)) = false := by decide

/-- A parameter set that breaks each check of R7, and one that lists a byte twice (log entry 19). -/
def badLength : Params := { defaultParams with respTable := (0x74, .entry 21 (.extension [])) :: defaultRespTable }
def secondUnsupported : Params := { defaultParams with respTable := (0x74, .unsupported) :: defaultRespTable }
def noUnsupported : Params := { defaultParams with respTable := [(0x60, .entry 7 .getInfo)] }
def messageOpcode : Params := { defaultParams with respTable := (0x59, .entry 1 (.extension [])) :: defaultRespTable }
def foreignOpcode : Params := { defaultParams with respTable := (0x74, .entry 1 .ledOn) :: defaultRespTable }
def missingButton : Params := { defaultParams with buttonTable := defaultButtonTable.tail }
def twoBytesOneButton : Params := { defaultParams with buttonTable := (0x32, (.one, .held)) :: defaultButtonTable.tail }
def twoBytesOneRole : Params := { defaultParams with linkRoleTable := (0x02, .deleted) :: defaultLinkRoleTable }
def repeatedByte : Params := { defaultParams with linkRoleTable := [(0x00, .responder), (0x00, .controller)] }

theorem test_params_default : defaultParams.ok = true := by decide
theorem test_params_length : badLength.lengthsFit = false := by decide
theorem test_params_second_unsupported : secondUnsupported.onlyUnsupported = false := by decide
theorem test_params_no_unsupported : noUnsupported.onlyUnsupported = false := by decide
theorem test_params_message_opcode : messageOpcode.spaceKept = false := by decide
theorem test_params_foreign_opcode : foreignOpcode.spaceKept = false := by decide
theorem test_params_missing_button : missingButton.buttonsComplete = false := by decide
theorem test_params_two_bytes_one_button : twoBytesOneButton.buttonsComplete = false := by decide
theorem test_params_two_bytes_one_role : twoBytesOneRole.rolesUnique = false := by decide
theorem test_params_repeated_byte : repeatedByte.tablesAreMaps = false := by decide
theorem test_params_refused : step { State.reset with params := badLength } = .refused .illFormedParams := by rfl

/-! ## Decoding: bytes written out bit by bit from 30_encoding.md R65, R68, R73, R74 and 42_response_frames.md R140 -/

theorem test_decode_marker : decodeTableWord 8 0b00000010 = some .marker := by decide
theorem test_decode_message_opcodes :
    ([0b01010000, 0b01010001, 0b01010010, 0b01010011, 0b01010100, 0b01010101, 0b01010110, 0b01010111, 0b01011000,
      0b01011001] : List Byte).map (decode defaultParams (.opcode .msg)) =
    [some (.receivedStd (.accept 0x50)), some (.receivedExt (.accept 0x51)), some (.x10Received (.accept 0x52)),
     some (.linkComplete (.accept 0x53)), some (.buttonEvent (.accept 0x54)), some .userReset,
     some (.linkCleanupFailed (.accept 0x56)), some (.linkRecordResponse (.accept 0x57)),
     some (.linkCleanupStatus (.accept 0x58)), some (.databaseRecordFound (.accept 0x59))] := by decide
theorem test_decode_response_opcodes :
    ([0b01100000, 0b01100001, 0b01100010, 0b01100011, 0b01100100, 0b01100101, 0b01100110, 0b01100111, 0b01101000,
      0b01101001] : List Byte).map (decode defaultParams (.opcode .rsp)) =
    [some (.getInfo (.accept 0x60)), some (.linkCommandEcho (.accept 0x61)), some .unsupported,
     some (.x10Sent (.accept 0x63)), some (.linkStart (.accept 0x64)), some (.linkCancel (.accept 0x65)),
     some (.categorySet (.accept 0x66)), some (.reset (.accept 0x67)), some (.ackByteSet (.accept 0x68)),
     some (.firstLinkRecord (.accept 0x69))] := by decide
theorem test_decode_response_opcodes_high :
    ([0b01101010, 0b01101011, 0b01101100, 0b01101101, 0b01101110, 0b01101111, 0b01110000, 0b01110001, 0b01110010,
      0b01110011] : List Byte).map (decode defaultParams (.opcode .rsp)) =
    [some (.nextLinkRecord (.accept 0x6A)), some (.configSet (.accept 0x6B)), some (.senderLinkRecord (.accept 0x6C)),
     some (.ledOn (.accept 0x6D)), some (.ledOff (.accept 0x6E)), some (.linkRecordUpdate (.accept 0x6F)),
     some (.nakByteSet (.accept 0x70)), some (.ackTwoBytesSet (.accept 0x71)), some (.sleep (.accept 0x72)),
     some (.configGet (.accept 0x73))] := by decide
theorem test_decode_commands :
    ([0b00001000, 0b00001001, 0b00001010, 0b00010000, 0b00010001, 0b00010010, 0b00010011, 0b00010100, 0b00010101,
      0b00010110, 0b00010111, 0b00011000, 0b00011001] : List Byte).map
      (decode defaultParams (.payload (.msg .receivedStd) 3 0x00)) =
    [some (.cmdCancelLinking .select), some (.cmdBeginLinking .select), some (.cmdBeginUnlinking .select),
     some (.cmdIdRequest .select), some (.cmdOn .select), some (.cmdFastOn .select), some (.cmdOff .select),
     some (.cmdFastOff .select), some (.cmdBright .select), some (.cmdDim .select), some (.cmdStart .select),
     some (.cmdStop .select), some (.cmdStatusRequest .select)] := by decide
theorem test_decode_command_data :
    decode defaultParams (.payload (.rsp .linkCommandEcho) 2 0x13) 0x07 = some (.cmdOff (.data 0x07)) := by decide
theorem test_decode_buttons :
    ([0b00000010, 0b00000011, 0b00000100, 0b00010010, 0b00010011, 0b00010100, 0b00100010, 0b00100011, 0b00100100] :
      List Byte).map (decode defaultParams (.payload (.msg .buttonEvent) 0 0x00)) =
    [some .btn1Tapped, some .btn1Held, some .btn1Released, some .btn2Tapped, some .btn2Held, some .btn2Released,
     some .btn3Tapped, some .btn3Held, some .btn3Released] := by decide
theorem test_decode_x10_flags :
    ([0b00000000, 0b10000000] : List Byte).map (decode defaultParams (.payload (.msg .x10Received) 1 0x66)) =
    [some .x10Unit, some .x10Command] := by decide
theorem test_decode_frame_byte :
    decode defaultParams (.payload (.msg .receivedStd) 0 0x00) 0x02 = some (.receivedStd (.payload 0x02)) := by decide
theorem test_decode_noise : decode defaultParams .hunt 0x50 = none := by decide
theorem test_decode_unlisted_opcode : decode defaultParams (.opcode .rsp) 0x74 = none := by decide
theorem test_table_word_runs :
    step (State.reset.withFetchWord 8 0x58) = exec (.linkCleanupStatus (.accept 0x58)) (State.reset.withFetchWord 8 0x58) := by
  rfl

/-! ## One edge: the synchroniser (vectors S, T and the examples of 40_sync.md) -/

theorem test_s1_noise : phaseAfter (hunting 0x50) = some .hunt := by decide
theorem test_s2_marker : phaseAfter (hunting 0x02) = some .opc := by decide
theorem test_s5_marker_as_opcode : phaseAfter (selecting .msg 0x02) = some .hunt := by decide
theorem test_s4_response_opcode_in_msg : phaseAfter (selecting .msg 0x60) = some .hunt := by decide
theorem test_s12_unsupported_in_msg : phaseAfter (selecting .msg 0x62) = some .hunt := by decide
theorem test_s13_message_opcode_in_rsp : phaseAfter (selecting .rsp 0x50) = some .hunt := by decide
theorem test_s14_outside : [0x5A, 0x5F, 0x74, 0x49].map (fun b => phaseAfter (selecting .rsp b)) =
    [some .hunt, some .hunt, some .hunt, some .hunt] := by decide
theorem test_r97_length : after (selecting .msg 0x51) =
    some { selecting .msg 0x51 with st := .pay, opcR := 0x51, lenR := 20, inputs := [] } := by decide
theorem test_r98_marker_in_payload : after (taking .msg 0x50 6 [] 0x02) =
    some { taking .msg 0x50 6 [0x02] 0x00 with inputs := [] } := by decide
theorem test_s20_mode_of_the_opcode_edge :
    recordAfter { taking .msg 0x58 1 [] 0x06 with inputs := [offer .rsp 0x06] } =
    some (.linkCleanupStatus (success := true)) := by decide
theorem test_t1_error_before_byte :
    phaseAfter { hunting 0x02 with inputs := [{ offer .msg 0x02 with inErr := true }] } = some .eos := by decide
theorem test_t2_held : after (presenting 0x06 { offer .msg 0x02 with outReady := false }) =
    some { presenting 0x06 quietEdge with inputs := [] } := by decide
theorem test_t3_handed_over : after (presenting 0x06 (offer .msg 0x02)) =
    some { presenting 0x06 quietEdge with
      st := .hunt, sink := [.linkCleanupStatus (success := true)], inputs := [] } := by decide
theorem test_t4_error_ignored_in_out :
    phaseAfter (presenting 0x06 { offer .msg 0x02 with inErr := true }) = some .hunt := by decide
theorem test_t6_reset : [.hunt, .opc, .pay, .out, .eos].map (fun p =>
      phaseAfter { presenting 0x06 { offer .msg 0x02 with rst := true, inErr := true } with st := p }) =
    [some .hunt, some .hunt, some .hunt, some .hunt, some .hunt] := by decide
theorem test_t7_idle : after { taking .msg 0x50 6 [0x11, 0x22] 0x00 with inputs := [] } =
    some { taking .msg 0x50 6 [0x11, 0x22] 0x00 with inputs := [] } := by decide
theorem test_t8_end_of_stream : after (ended (offer .msg 0x02)) =
    some { ended quietEdge with inputs := [] } := by decide

/-! ## One edge: the message frames (vectors M) -/

theorem test_m1_received_std : msgRecord 0x50 6 [0x11, 0x22, 0x33, 0x11, 0x05] 0x2B =
    some (.receivedStd (addr := ⟨0x11, 0x22, 0x33⟩) (addrValue := 0x112233) (cmd := some (.on (.group 5)))
      (cmdRaw := (0x11, 0x05)) (flags := 0x2B) (ext := none)) := by decide
theorem test_m3_no_command : msgRecord 0x50 6 [0xAA, 0xBB, 0xCC, 0x2E, 0x00] 0x00 =
    some (.receivedStd (addr := ⟨0xAA, 0xBB, 0xCC⟩) (addrValue := 0xAABBCC) (cmd := none)
      (cmdRaw := (0x2E, 0x00)) (flags := 0x00) (ext := none)) := by decide
theorem test_w7_received_ext :
    msgRecord 0x51 20 [0xAA, 0xBB, 0xCC, 0x17, 0x01, 0x1F, 1, 2, 3, 4, 5, 6, 7, 8, 9, 10, 11, 12, 13] 14 =
    some (.receivedExt (addr := ⟨0xAA, 0xBB, 0xCC⟩) (addrValue := 0xAABBCC) (cmd := some (.start .bright))
      (cmdRaw := (0x17, 0x01)) (flags := 0x1F) (ext := some [1, 2, 3, 4, 5, 6, 7, 8, 9, 10, 11, 12, 13, 14])) := by decide
theorem test_m7_x10_received : msgRecord 0x52 3 [0x6E, 0x00] 0x15 =
    some (.x10Received (house := 0) (payload := .unit 1) (success := false)) := by decide
theorem test_m8_x10_unparsable : phaseAfter (taking .msg 0x52 3 [0x66, 0x40] 0x06) = some .hunt := by decide
theorem test_m10_link_complete : msgRecord 0x53 8 [0x01, 0x05, 0xAA, 0xBB, 0xCC, 0x01, 0x20] 0xFF =
    some (.linkComplete (result :=
      { role := .controller, group := 5, addr := ⟨0xAA, 0xBB, 0xCC⟩, addrValue := 0xAABBCC, category := 0x01,
        subcategory := 0x20, catValid := true, firmware := none })) := by decide
theorem test_m13_unknown_role :
    phaseAfter (taking .msg 0x53 8 [0x02, 0x01, 0x11, 0x22, 0x33, 0x00, 0x00] 0x30) = some .hunt := by decide
theorem test_m14_buttons :
    ([0x02, 0x03, 0x04, 0x12, 0x13, 0x14, 0x22, 0x23, 0x24] : List Byte).map (fun b => msgRecord 0x54 1 [] b) =
    [some (.buttonEvent .one .tapped), some (.buttonEvent .one .held), some (.buttonEvent .one .released),
     some (.buttonEvent .two .tapped), some (.buttonEvent .two .held), some (.buttonEvent .two .released),
     some (.buttonEvent .three .tapped), some (.buttonEvent .three .held), some (.buttonEvent .three .released)] := by
  decide
theorem test_m15_no_button :
    ([0x00, 0x01, 0x05, 0x11, 0x25, 0x32, 0xFF] : List Byte).map (fun b => phaseAfter (taking .msg 0x54 1 [] b)) =
    List.replicate 7 (some .hunt) := by decide
theorem test_m16_user_reset : recordAfter (selecting .msg 0x55) = some .userReset := by decide
theorem test_m17_link_cleanup_failed : msgRecord 0x56 5 [0xFF, 0x07, 0x12, 0x34] 0x56 =
    some (.linkCleanupFailed (group := 7) (addr := ⟨0x12, 0x34, 0x56⟩) (addrValue := 0x123456)) := by decide
theorem test_m18_link_record_response : msgRecord 0x57 8 [0xE2, 0x01, 0x0A, 0x0B, 0x0C, 0x03, 0x1C] 0x01 =
    some (.linkRecordResponse (flags := 0xE2) (group := 1) (addr := ⟨0x0A, 0x0B, 0x0C⟩) (addrValue := 0x0A0B0C)
      (linkData := (0x03, 0x1C, 0x01))) := by decide
theorem test_m19_link_cleanup_status :
    ([0x06, 0x15, 0x00, 0x02] : List Byte).map (fun b => msgRecord 0x58 1 [] b) =
    [some (.linkCleanupStatus true), some (.linkCleanupStatus false), some (.linkCleanupStatus false),
     some (.linkCleanupStatus false)] := by decide
theorem test_m20_database_record : msgRecord 0x59 10 [0x0F, 0xF8, 0xA2, 0x00, 0x11, 0x22, 0x33, 0x01, 0x02] 0x03 =
    some (.databaseRecordFound (dbAddr := (0x0F, 0xF8)) (dbAddrValue := 0x0FF8) (flags := 0xA2) (group := 0)
      (id := ⟨0x11, 0x22, 0x33⟩) (idValue := 0x112233) (linkData := (0x01, 0x02, 0x03))) := by decide

/-! ## One edge: the response frames (vectors Q) -/

theorem test_q2_get_info : rspRecord 0x60 7 [0x00, 0x00, 0x00, 0x00, 0x00, 0xFF] 0x15 =
    some (.getInfo (id := ⟨0, 0, 0⟩) (idValue := 0) (category := 0) (subcategory := 0) (firmware := 0xFF)
      (ack := false)) := by decide
theorem test_q3_link_command_echo : rspRecord 0x61 4 [0x01, 0x13, 0x00] 0x06 =
    some (.linkCommandEcho (group := 1) (cmd := some (.off none)) (cmdRaw := (0x13, 0x00)) (ack := true)) := by decide
theorem test_q4_echo_without_command : rspRecord 0x61 4 [0x00, 0x99, 0x00] 0x15 =
    some (.linkCommandEcho (group := 0) (cmd := none) (cmdRaw := (0x99, 0x00)) (ack := false)) := by decide
theorem test_q5_unsupported : recordAfter (selecting .rsp 0x62) = some (.unsupported (opcode := 0x62)) := by decide
theorem test_q7_x10_sent : rspRecord 0x63 3 [0xE2, 0x00] 0x15 =
    some (.x10Sent (house := 1) (payload := .unit 2) (success := false)) := by decide
theorem test_q8_x10_sent_unparsable : phaseAfter (taking .rsp 0x63 3 [0xE2, 0x08] 0x06) = some .hunt := by decide
theorem test_q9_link_start : rspRecord 0x64 3 [0x01, 0x00] 0x06 =
    some (.linkStart (code := 0x01) (group := 0) (ack := true)) := by decide
theorem test_q10_link_cancel : rspRecord 0x65 1 [] 0x15 = some (.linkCancel (ack := false)) := by decide
theorem test_q11_category_set : rspRecord 0x66 4 [0x03, 0x37, 0xFF] 0x15 =
    some (.categorySet (category := 0x03) (subcategory := 0x37) (firmware := 0xFF) (ack := false)) := by decide
theorem test_q12_reset : rspRecord 0x67 1 [] 0x06 = some (.reset (ack := true)) := by decide
theorem test_q13_ack_byte_set : rspRecord 0x68 2 [0x42] 0x06 =
    some (.ackByteSet (cmd2 := 0x42) (ack := true)) := by decide
theorem test_q14_first_link_record : rspRecord 0x69 1 [] 0x15 = some (.firstLinkRecord (ack := false)) := by decide
theorem test_q15_next_link_record : rspRecord 0x6A 1 [] 0x06 = some (.nextLinkRecord (ack := true)) := by decide
theorem test_q16_config_set : rspRecord 0x6B 2 [0x48] 0x06 =
    some (.configSet (config := ⟨true, true, false, true, true⟩) (configRaw := 0x48) (ack := true)) := by decide
theorem test_q17_config_set_low_bits : rspRecord 0x6B 2 [0x97] 0x06 =
    some (.configSet (config := ⟨false, false, false, false, false⟩) (configRaw := 0x97) (ack := true)) := by decide
theorem test_q18_sender_link_record : rspRecord 0x6C 1 [] 0x06 = some (.senderLinkRecord (ack := true)) := by decide
theorem test_q19_led_on : rspRecord 0x6D 1 [] 0x06 = some (.ledOn (ack := true)) := by decide
theorem test_q20_led_off : rspRecord 0x6E 1 [] 0x00 = some (.ledOff (ack := false)) := by decide
theorem test_q21_link_record_update :
    rspRecord 0x6F 10 [0x40, 0xE2, 0x01, 0x11, 0x22, 0x33, 0x01, 0x02, 0x03] 0x06 =
    some (.linkRecordUpdate (control := 0x40) (flags := 0xE2) (group := 1) (addr := ⟨0x11, 0x22, 0x33⟩)
      (addrValue := 0x112233) (linkData := (0x01, 0x02, 0x03)) (ack := true)) := by decide
theorem test_q22_nak_byte_set : rspRecord 0x70 2 [0x00] 0x06 =
    some (.nakByteSet (cmd2 := 0x00) (ack := true)) := by decide
theorem test_q23_ack_two_bytes : rspRecord 0x71 3 [0x11, 0xFF] 0x06 =
    some (.ackTwoBytesSet (cmd1 := 0x11) (cmd2 := 0xFF) (ack := true)) := by decide
theorem test_q24_sleep : rspRecord 0x72 3 [0x00, 0x00] 0x06 =
    some (.sleep (cmd1 := 0x00) (cmd2 := 0x00) (ack := true)) := by decide
theorem test_q26_config_get : rspRecord 0x73 4 [0x68, 0xAB, 0xCD] 0x15 =
    some (.configGet (config := ⟨true, true, true, true, true⟩) (configRaw := 0x68) (spare := (0xAB, 0xCD))
      (ack := false)) := by decide

/-! ## One edge: the bytes inside a payload, and the codecs (vectors K, X, G, A) -/

theorem test_command_bytes_are_stored :
    commandBytes.map (fun c1 => phaseAfter (taking .msg 0x50 6 [0x11, 0x22, 0x33] c1)) =
    List.replicate 13 (some .pay) := by decide
theorem test_k_command_pairs :
    ([(0x08, 0x55), (0x09, 0x00), (0x0A, 0x01), (0x10, 0x00), (0x11, 0x00), (0x12, 0xC8), (0x13, 0x07), (0x14, 0x00),
      (0x15, 0x01), (0x16, 0x00), (0x17, 0x02), (0x18, 0xAB), (0x19, 0x02)] : List (Byte × Byte)).map
      (fun r => cmdDec r.1 r.2) =
    [some .cancelLinking, some (.beginLinking 0), some (.beginUnlinking 1), some .idRequest, some (.on (.group 0)),
     some (.fastOn (some 200)), some (.off (some 7)), some (.fastOff none), some (.bright (some 1)), some (.dim none),
     some (.start .dim), some .stop, some .statusRequest] := by decide
theorem test_k14_no_command : ([0x00, 0x07, 0x0B, 0x0F, 0x1A, 0x2E, 0xFF] : List Byte).map (fun c => cmdDec c 0x00) =
    List.replicate 7 none := by decide
theorem test_k_encode :
    ([.on (.level 200), .bright (some 255), .statusRequest, .stop, .beginUnlinking 9, .dim none] : List Command).map cmdEnc =
    [(0x11, 0xC8), (0x15, 0xFF), (0x19, 0x00), (0x18, 0x00), (0x0A, 0x09), (0x16, 0x00)] := by decide
theorem test_x10_flag_is_stored : after (taking .msg 0x52 3 [0x66] 0x80) =
    some { taking .msg 0x52 3 [0x66, 0x80] 0x00 with inputs := [] } := by decide
theorem test_x2_unit : x10Dec 0xC4 0x00 0x15 = some ⟨15, .unit 14, false⟩ := by decide
theorem test_x9_encode : x10Enc ⟨0, .unit 0, true⟩ = some (0x66, 0x00, 0x06) := by decide
theorem test_x10_encode_failure : x10Enc ⟨15, .unit 12, false⟩ = some (0xC0, 0x00, 0x15) := by decide
theorem test_x6_hole : x10Dec 0x62 0x80 0x06 = none ↔ Config.x10CmdHole = 2 := by
  rw [← show nib2idx (lowNibble 0x62) = 2 from rfl]
  constructor
  · intro h
    by_contra hn
    have : x10Dec 0x62 0x80 0x06 = some ⟨nib2idx (highNibble 0x62), .command (nib2idx (lowNibble 0x62)), success 0x06⟩ :=
      if_neg (fun he => hn he.symm)
    rw [this] at h
    cases h
  · intro h
    exact if_pos h.symm
theorem test_x15_ports : (x10Port 0, x10Port 15, houseLetter 0, houseLetter 15) = (0x0, 0xF, 'A', 'P') := by decide
theorem test_g1_config : cfgDec 0xFF = ⟨false, true, true, false, true⟩ := by decide
theorem test_w4_config_rows : (cfgEnc ⟨false, false, false, false, false⟩, cfgEnc ⟨true, true, true, true, true⟩,
    cfgEnc ⟨true, false, false, true, false⟩) = (0x90, 0x68, 0x00) := by decide
theorem test_a1_address : (addrReduce 0xAA 0xBB 0xCC, addrReduce 0x00 0xFF 0x00) = (0xAABBCC, 0x00FF00) := by decide

/-! ## Witnesses: a state and operands that meet the hypotheses of each statement that has any -/

/-- An edge of reset. -/
def resetting : Edge := { offer .rsp 0x55 with rst := true, inErr := true }

/-- A parameter set whose table has an extension entry with two fields, one with no payload and one with the longest
payload, and two rows of length 0. -/
def extended : Params := { defaultParams with
  respTable := (0x74, .entry 3 (.extension [⟨"first", 0, 2⟩, ⟨"last", 2, 1⟩])) :: (0x75, .entry 0 (.extension [])) ::
    (0x76, .entry 20 (.extension [⟨"all", 0, 20⟩])) ::
    (defaultRespTable.map fun r =>
      if r.1 = 0x72 then (r.1, .entry 0 .sleep) else if r.1 = 0x63 then (r.1, .entry 0 .x10Sent) else r) }

theorem wit_extended_ok : extended.ok = true := by decide

theorem wit_HuntDropsNoise : (hunting 0x06).params.ok = true ∧ (hunting 0x06).st = .hunt ∧
    (hunting 0x06).transfers = true ∧ (hunting 0x06).edge.inData ≠ 0x02 := by decide
theorem wit_UnrecognisedOpcodeIsDiscarded : ∀ b ∈ ([0x02, 0x4F, 0x5A, 0x62] : List Byte),
    (selecting .msg b).params.ok = true ∧ (selecting .msg b).st = .opc ∧ (selecting .msg b).transfers = true ∧
    lookup (selecting .msg b).params (selecting .msg b).edge.mode (selecting .msg b).edge.inData = .none := by decide
theorem wit_OutHandsOverOrHolds_ready : (presenting 0x06 (offer .msg 0x02)).params.ok = true ∧
    (presenting 0x06 (offer .msg 0x02)).st = .out ∧ (presenting 0x06 (offer .msg 0x02)).edge.rst = false ∧
    (presenting 0x06 (offer .msg 0x02)).edge.outReady = true := by decide
theorem wit_OutHandsOverOrHolds_waiting : (presenting 0x06 quietEdge).params.ok = true ∧
    (presenting 0x06 quietEdge).st = .out ∧ (presenting 0x06 quietEdge).edge.rst = false ∧
    (presenting 0x06 quietEdge).edge.outReady = false := by decide

/-- A read phase with a failing source. -/
def failing (p : Phase) : State :=
  { taking .msg 0x50 6 [0x11] 0x22 with st := p, inputs := [{ offer .msg 0x22 with inErr := true }] }
theorem wit_SourceFailureEndsStream : ∀ p ∈ [Phase.hunt, .opc, .pay],
    (failing p).params.ok = true ∧ ((failing p).st = .hunt ∨ (failing p).st = .opc ∨ (failing p).st = .pay) ∧
    (failing p).edge.rst = false ∧ (failing p).edge.inErr = true ∧ after (failing p) ≠ none := by decide
theorem wit_EndOfStreamIsTerminal : (ended (offer .msg 0x02)).params.ok = true ∧ (ended (offer .msg 0x02)).st = .eos ∧
    (ended (offer .msg 0x02)).edge.rst = false := by decide
theorem wit_EndOfStreamIsTerminal_reset : (ended resetting).params.ok = true ∧ (ended resetting).st = .eos ∧
    (ended resetting).edge.rst = true := by decide

/-- A read phase in which nothing is offered. -/
def idling (p : Phase) : State := { taking .msg 0x50 6 [0x11] 0x22 with st := p, inputs := [] }
theorem wit_IdleEdgeChangesNothing : ∀ p ∈ [Phase.hunt, .opc, .pay],
    (idling p).params.ok = true ∧ ((idling p).st = .hunt ∨ (idling p).st = .opc ∨ (idling p).st = .pay) ∧
    (idling p).edge.rst = false ∧ (idling p).edge.inErr = false ∧ (idling p).edge.inValid = false := by decide
theorem wit_ResetEdgeReturnsToHunt : ∀ p ∈ [Phase.hunt, .opc, .pay, .out, .eos],
    ({ presenting 0x06 resetting with st := p } : State).params.ok = true ∧
    ({ presenting 0x06 resetting with st := p } : State).edge.rst = true := by decide

theorem wit_IllFormed_length : (0x74, RespEntry.entry 21 (.extension [])) ∈ badLength.respTable ∧ 20 < (21 : Len).toNat := by
  decide
theorem wit_IllFormed_none : lookup noUnsupported .rsp 0x62 ≠ .unsupported := by decide
theorem wit_IllFormed_second : (0x74 : Byte) ≠ 0x62 ∧ lookup secondUnsupported .rsp 0x74 = .unsupported := by decide
theorem wit_IllFormed_message : 0x50#8 ≤ 0x59 ∧ 0x59 ≤ 0x59#8 ∧ lookup messageOpcode .rsp 0x59 ≠ .none := by decide
theorem wit_IllFormed_foreign : lookup foreignOpcode .rsp 0x74 = .entry 1 (.rsp .ledOn) ∧
    ((0x74 : Byte) < 0x60#8 ∨ 0x73#8 < 0x74) ∧ ∀ layout, RspKind.ledOn ≠ .extension layout :=
  ⟨by decide, by decide, fun _ h => by cases h⟩
theorem wit_IllFormed_button : buttonByte missingButton (.one, .tapped) = none := by decide
theorem wit_IllFormed_button_twice : (0x32 : Byte) ≠ 0x03 ∧ buttonOf twoBytesOneButton 0x32 ≠ none ∧
    buttonOf twoBytesOneButton 0x32 = buttonOf twoBytesOneButton 0x03 := by decide
theorem wit_IllFormed_role : (0x02 : Byte) ≠ 0xFF ∧ linkRoleOf twoBytesOneRole 0x02 ≠ none ∧
    linkRoleOf twoBytesOneRole 0x02 = linkRoleOf twoBytesOneRole 0xFF := by decide

theorem wit_StepRunsTheDecodedInstruction : (hunting 0x02).params.ok = true ∧ (hunting 0x02).transfers = true ∧
    (hunting 0x02).position = some .hunt ∧ decode (hunting 0x02).params .hunt (hunting 0x02).edge.inData = some .marker := by
  decide

/-- The last byte of the longest payload is about to be taken. -/
def lastOfTwenty : State := taking .msg 0x51 20 (List.replicate 19 0x02) 0x55
theorem wit_StepIsTheReferenceStep : lastOfTwenty.params.ok = true ∧ lastOfTwenty.st = .pay ∧ lastOfTwenty.cnt.toNat < 20 := by
  decide
theorem wit_StepKeepsInvariant : Inv lastOfTwenty ∧ (after lastOfTwenty).isSome = true := by decide
theorem wit_StepNeverStops : lastOfTwenty.params.ok = true ∧ Inv lastOfTwenty := by decide
theorem wit_ParametersNeverChange : (after (hunting 0x02)).isSome = true := by decide
theorem wit_SinkGrowsOnlyByHandOver : (after (presenting 0x06 (offer .msg 0x02))).isSome = true ∧
    (presenting 0x06 (offer .msg 0x02)).handsOver = true := by decide
theorem wit_HeldRecordIsConstant : (presenting 0x06 quietEdge).st = .out ∧ (presenting 0x06 quietEdge).edge.rst = false ∧
    (presenting 0x06 quietEdge).edge.outReady = false ∧ (after (presenting 0x06 quietEdge)).isSome = true := by decide
theorem wit_ModeMatters_elsewhere :
    ¬ ((taking .msg 0x50 6 [0x11] 0x22).st = .opc ∧
      ({ taking .msg 0x50 6 [0x11] 0x22 with inputs := [offer .rsp 0x22] } : State).transfers = true) := by decide
theorem wit_ModeMatters_opcode : (selecting .rsp 0x60).st = .opc ∧ (selecting .rsp 0x60).transfers = true ∧
    (after (selecting .rsp 0x60)).isSome = true := by decide
theorem wit_UnsampledInputs_data : ({ presenting 0x06 quietEdge with inputs := [offer .msg 0x02] } : State).transfers = false := by
  decide
theorem wit_UnsampledInputs_flags : (presenting 0x06 quietEdge).inReady = false := by decide
theorem wit_EventsEnterInOneTransition : ∀ e ∈ [Event.e1, .e2, .e3, .e4], e.errorClass = 1 := by decide
theorem wit_OutputsAreFunctionsOfRegisters : (presenting 0x06 quietEdge).st = .out := by decide

/-- `[0x58, 0x06]`, an idle edge and a ready sink after a marker. -/
def streaming : State :=
  { State.reset with inputs := [offer .msg 0x02, quietEdge, offer .msg 0x58, offer .msg 0x06, offer .msg 0x02] }
/-- The transaction level just after reset. -/
def freshScan : Scan := { phase := .hunt, modeL := .msg, opc := 0x00, len := 0, cnt := 0, buf := State.reset.buf }
theorem wit_EdgesRefine : streaming.params.ok = true ∧ Inv streaming ∧ Agrees streaming freshScan ∧
    (∀ e ∈ streaming.inputs.take 5, e.rst = false) ∧
    (match Host.Core.run Sys2Proof.core 5 streaming with
     | .next _ => true
     | _ => false) = true :=
  ⟨by decide, by decide, ⟨rfl, rfl, fun h => by cases h⟩, by decide, rfl⟩

/-- A frame of zero, one and twenty payload bytes, offered whole. -/
def whole (op : Byte) (P : List Byte) : List Edge := (0x02 :: op :: P).map (offer .msg)
theorem wit_FrameIsConsumedWhole :
    ∀ r ∈ ([(0x55, 0, .msg .userReset, []), (0x58, 1, .msg .linkCleanupStatus, [0x02]),
            (0x51, 20, .msg .receivedExt, List.replicate 20 0x02)] : List (Byte × Len × Kind × List Byte)),
    defaultParams.ok = true ∧ lookup defaultParams .msg r.1 = .entry r.2.1 r.2.2.1 ∧ r.2.2.2.length = r.2.1.toNat ∧
    (whole r.1 r.2.2.2).map Edge.inData = 0x02 :: r.1 :: r.2.2.2 ∧
    (∀ e ∈ whole r.1 r.2.2.2, e.rst = false ∧ e.inErr = false ∧ e.inValid = true) ∧
    ((whole r.1 r.2.2.2).map Edge.mode)[1]? = some .msg := by decide

theorem wit_DecodeOfEncode : defaultParams.ok = true ∧
    Instr.wellFormed defaultParams (.payload (.msg .receivedStd) 4 0x13) (.cmdOff (.data 0xFF)) = true := by decide
theorem wit_DecodedInstruction : defaultParams.ok = true ∧
    decode defaultParams (.payload (.rsp .x10Sent) 1 0x66) 0x80 = some .x10Command := by decide
theorem wit_MessageTable : (.linkCleanupStatus, 0x58, 1, .linkCleanupStatus) ∈ msgRows := by simp [msgRows]
theorem wit_DefaultTables : (.configGet, 0x73, 4, .configGet) ∈ rspRows ∧ (.btn3Released, 0x24, .three, .released) ∈ btnRows ∧
    buttonOf defaultParams 0x24 ≠ none := ⟨by simp [rspRows], by simp [btnRows], by decide⟩

theorem wit_MarkerStartsAFrame : (hunting 0x02).st = .hunt := by decide
theorem wit_MessageOpcode : (.receivedExt, 0x51, 20, .receivedExt) ∈ msgRows ∧ (selecting .msg 0x51).st = .opc ∧
    (selecting .msg 0x51).edge.mode = .msg := ⟨by simp [msgRows], by decide, by decide⟩
theorem wit_ResponseOpcode : (.getInfo, 0x60, 7, .getInfo) ∈ rspRows ∧ (selecting .rsp 0x60).st = .opc ∧
    (selecting .rsp 0x60).edge.mode = .rsp ∧ lookup (selecting .rsp 0x60).params .rsp 0x60 = .entry 7 (.rsp .getInfo) ∧
    (7 : Len) ≠ 0 := ⟨by simp [rspRows], by decide, by decide, by decide, by decide⟩
theorem wit_UserReset : (selecting .msg 0x55).st = .opc ∧ (selecting .msg 0x55).edge.mode = .msg := by decide
theorem wit_LengthZero : (.sleep, 0x72, 3, .sleep) ∈ rspRows ∧
    ({ selecting .rsp 0x72 with params := extended } : State).st = .opc ∧
    ({ selecting .rsp 0x72 with params := extended } : State).edge.mode = .rsp ∧
    lookup extended .rsp 0x72 = .entry 0 (.rsp .sleep) := ⟨by simp [rspRows], by decide, by decide, by decide⟩
theorem wit_LengthZero_x10 : (.x10Sent, 0x63, 3, .x10Sent) ∈ rspRows ∧
    ({ selecting .rsp 0x63 with params := extended } : State).st = .opc ∧
    ({ selecting .rsp 0x63 with params := extended } : State).edge.mode = .rsp ∧
    lookup extended .rsp 0x63 = .entry 0 (.rsp .x10Sent) := ⟨by simp [rspRows], by decide, by decide, by decide⟩
/-- R96: an X10_SENT frame of length 0 is presented, whatever the free bytes are. -/
theorem test_r96_x10_sent_of_length_zero :
    (acceptOpcode 0x63 { selecting .rsp 0x63 with params := extended }).st = .out := by
  rw [acceptOpcode_zero (k := .rsp .x10Sent) (by decide)]
theorem wit_Unsupported : (selecting .rsp 0x62).params.ok = true ∧ (selecting .rsp 0x62).st = .opc ∧
    (selecting .rsp 0x62).edge.mode = .rsp := by decide
theorem wit_PayloadByte_msg : (.receivedExt, 0x51, 20, .receivedExt) ∈ msgRows ∧ lastOfTwenty.st = .pay ∧
    lastOfTwenty.kind = some (.msg .receivedExt) ∧ lastOfTwenty.cnt.toNat < 20 :=
  ⟨by simp [msgRows], by decide, by decide, by decide⟩
theorem wit_PayloadByte_rsp : (.configGet, 0x73, 4, .configGet) ∈ rspRows ∧ (taking .rsp 0x73 4 [] 0x00).st = .pay ∧
    (taking .rsp 0x73 4 [] 0x00).kind = some (.rsp .configGet) ∧ (taking .rsp 0x73 4 [] 0x00).cnt.toNat < 20 :=
  ⟨by simp [rspRows], by decide, by decide, by decide⟩
theorem wit_CommandPair_select : (.cmdOn, 0x11, fun c2 => .on (.group c2)) ∈ cmdRows ∧
    (taking .msg 0x50 6 [0x11, 0x22, 0x33] 0x11).st = .pay ∧
    (taking .msg 0x50 6 [0x11, 0x22, 0x33] 0x11).kind = some (.msg .receivedStd) ∧
    commandIndex (.msg .receivedStd) = some 3 ∧ (taking .msg 0x50 6 [0x11, 0x22, 0x33] 0x11).cnt.toNat = 3 :=
  ⟨by simp [cmdRows], by decide, by decide, by decide, by decide⟩
theorem wit_CommandPair_data : (.cmdStop, 0x18, fun _ => .stop) ∈ cmdRows ∧
    (taking .rsp 0x61 4 [0x01, 0x18] 0xAB).st = .pay ∧
    (taking .rsp 0x61 4 [0x01, 0x18] 0xAB).kind = some (.rsp .linkCommandEcho) ∧
    commandIndex (.rsp .linkCommandEcho) = some 1 ∧ (taking .rsp 0x61 4 [0x01, 0x18] 0xAB).cnt.toNat = 1 + 1 ∧
    (taking .rsp 0x61 4 [0x01, 0x18] 0xAB).buf.toList[1]? = some 0x18 :=
  ⟨by simp [cmdRows], by decide, by decide, by decide, by decide, by decide⟩
theorem wit_ButtonByte : (.btn2Held, 0x13, .two, .held) ∈ btnRows ∧ (taking .msg 0x54 1 [] 0x13).params.ok = true ∧
    buttonOf (taking .msg 0x54 1 [] 0x13).params 0x13 = some (.two, .held) ∧ (taking .msg 0x54 1 [] 0x13).st = .pay ∧
    (taking .msg 0x54 1 [] 0x13).modeL = .msg ∧ (taking .msg 0x54 1 [] 0x13).opcR = 0x54 ∧
    (taking .msg 0x54 1 [] 0x13).lenR = 1 ∧ (taking .msg 0x54 1 [] 0x13).cnt = 0 :=
  ⟨by simp [btnRows], by decide, by decide, by decide, by decide, by decide, by decide, by decide⟩
theorem wit_X10Flag_msg : (taking .msg 0x52 3 [0x66] 0x00).st = .pay ∧
    (taking .msg 0x52 3 [0x66] 0x00).kind = some (.msg .x10Received) ∧ (taking .msg 0x52 3 [0x66] 0x00).cnt = 1 := by decide
theorem wit_X10Flag_rsp : (taking .rsp 0x63 3 [0x66] 0x80).st = .pay ∧
    (taking .rsp 0x63 3 [0x66] 0x80).kind = some (.rsp .x10Sent) ∧ (taking .rsp 0x63 3 [0x66] 0x80).cnt = 1 := by decide

/-- The hypotheses of a statement about the last payload byte of a frame. -/
def lastByte (s : State) (m : Mode) (op : Byte) (len cnt : Len) : Bool :=
  s.params.ok && s.st == .pay && s.modeL == m && s.opcR == op && s.lenR == len && s.cnt == cnt
theorem wit_ReceivedStdRecord : lastByte (taking .msg 0x50 6 [0x11, 0x22, 0x33, 0x11, 0x05] 0x2B) .msg 0x50 6 5 = true := by decide
theorem wit_ReceivedExtRecord : lastByte lastOfTwenty .msg 0x51 20 19 = true := by decide
theorem wit_X10Records_msg : lastByte (taking .msg 0x52 3 [0x6E, 0x00] 0x15) .msg 0x52 3 2 = true ∧
    x10Dec 0x6E 0x00 0x15 = some ⟨0, .unit 1, false⟩ ∧ x10Dec 0x6E 0x01 0x15 = none := by decide
theorem wit_X10Records_rsp : lastByte (taking .rsp 0x63 3 [0x6E, 0x01] 0x06) .rsp 0x63 3 2 = true ∧
    lookup defaultParams .rsp 0x63 = .entry 3 (.rsp .x10Sent) ∧ x10Dec 0x6E 0x00 0x06 = some ⟨0, .unit 1, true⟩ ∧
    x10Dec 0x6E 0x01 0x06 = none := by decide
theorem wit_LinkCompleteRecord :
    lastByte (taking .msg 0x53 8 [0x01, 0x05, 0xAA, 0xBB, 0xCC, 0x01, 0x20] 0xFF) .msg 0x53 8 7 = true ∧
    linkRoleOf defaultParams 0x01 = some .controller ∧ linkRoleOf defaultParams 0x02 = none := by decide
theorem wit_ButtonEventRecord : lastByte (taking .msg 0x54 1 [] 0x77) .msg 0x54 1 0 = true ∧
    buttonOf defaultParams 0x02 = some (.one, .tapped) ∧ buttonOf defaultParams 0x77 = none := by decide
theorem wit_OtherMessageRecords :
    lastByte (taking .msg 0x56 5 [0, 1, 2, 3] 4) .msg 0x56 5 4 = true ∧
    lastByte (taking .msg 0x57 8 [0, 1, 2, 3, 4, 5, 6] 7) .msg 0x57 8 7 = true ∧
    lastByte (taking .msg 0x58 1 [] 0x06) .msg 0x58 1 0 = true ∧
    lastByte (taking .msg 0x59 10 [0, 1, 2, 3, 4, 5, 6, 7, 8] 9) .msg 0x59 10 9 = true := by decide
theorem wit_AcknowledgeOnly : lastByte (taking .rsp 0x65 1 [] 0x06) .rsp 0x65 1 0 = true ∧
    lookup defaultParams .rsp 0x65 = .entry 1 (.rsp .linkCancel) := by decide
theorem wit_OneByteAndAcknowledge : lastByte (taking .rsp 0x68 2 [0x42] 0x06) .rsp 0x68 2 1 = true ∧
    lookup defaultParams .rsp 0x68 = .entry 2 (.rsp .ackByteSet) := by decide
theorem wit_TwoBytesAndAcknowledge : lastByte (taking .rsp 0x64 3 [0x01, 0x00] 0x06) .rsp 0x64 3 2 = true ∧
    lookup defaultParams .rsp 0x64 = .entry 3 (.rsp .linkStart) := by decide
theorem wit_ThreeBytesAndAcknowledge : lastByte (taking .rsp 0x61 4 [0x01, 0x13, 0x00] 0x06) .rsp 0x61 4 3 = true ∧
    lookup defaultParams .rsp 0x61 = .entry 4 (.rsp .linkCommandEcho) := by decide
theorem wit_GetInfoAndLinkRecordUpdate : lastByte (taking .rsp 0x60 7 [0, 1, 2, 3, 4, 5] 0x06) .rsp 0x60 7 6 = true ∧
    lookup defaultParams .rsp 0x60 = .entry 7 (.rsp .getInfo) ∧
    lastByte (taking .rsp 0x6F 10 [0, 1, 2, 3, 4, 5, 6, 7, 8] 0x06) .rsp 0x6F 10 9 = true ∧
    lookup defaultParams .rsp 0x6F = .entry 10 (.rsp .linkRecordUpdate) := by decide
theorem wit_ExtensionFrame_opcode : ∀ b ∈ ([0x74, 0x75, 0x76] : List Byte),
    ({ selecting .rsp b with params := extended } : State).st = .opc ∧
    ({ selecting .rsp b with params := extended } : State).transfers = true ∧
    ({ selecting .rsp b with params := extended } : State).edge.mode = .rsp ∧
    lookup extended .rsp b = .entry (if b = 0x74 then 3 else if b = 0x75 then 0 else 20) (.rsp (.extension
      (if b = 0x74 then [⟨"first", 0, 2⟩, ⟨"last", 2, 1⟩] else if b = 0x75 then [] else [⟨"all", 0, 20⟩]))) := by decide

/-- The last payload byte of an extension frame. -/
def extending : State := { taking .rsp 0x74 3 [0x11, 0x22] 0x33 with params := extended }
theorem wit_ExtensionFrame_last : extending.params.ok = true ∧ extending.st = .pay ∧ extending.transfers = true ∧
    extending.kind = some (.rsp (.extension [⟨"first", 0, 2⟩, ⟨"last", 2, 1⟩])) ∧ extending.cnt.toNat < 20 ∧
    extending.cnt + 1 = extending.lenR ∧ ∀ f ∈ [LayoutField.mk "first" 0 2, ⟨"last", 2, 1⟩], f.start + f.len ≤ extending.lenR.toNat := by
  decide
theorem test_extension_record : recordAfter extending =
    some (.extension (opcode := 0x74) (fields := [("first", [0x11, 0x22]), ("last", [0x33])])) := by decide

theorem wit_X10DecodeIsAsStated_command : nib2idx (lowNibble (idx2nib 0 ++ idx2nib Config.x10CmdHole)) = Config.x10CmdHole ∧
    nib2idx (lowNibble (idx2nib 0 ++ idx2nib (Config.x10CmdHole + 1))) ≠ Config.x10CmdHole := by
  have h : ∀ c : X10Index, nib2idx (lowNibble (idx2nib 0 ++ idx2nib c)) = c ∧ c + 1 ≠ c := by decide
  exact ⟨(h _).1, by rw [(h _).1]; exact (h _).2⟩
theorem wit_X10DecodeIsAsStated_other : (0x81 : Byte) ≠ 0x00 ∧ (0x81 : Byte) ≠ 0x80 := by decide
theorem wit_X10CodecRoundTrips : x10Enc ⟨15, .unit 12, false⟩ = some (0xC0, 0x00, 0x15) ∧
    x10Dec 0x66 0x00 0x00 = some ⟨0, .unit 0, false⟩ := by decide
theorem wit_CommandDecodeIsAsStated : (.cmdOn, 0x11, fun c2 => .on (.group c2)) ∈ cmdRows ∧ ∀ r ∈ cmdRows, 0x1A ≠ r.2.1 := by
  refine ⟨by simp [cmdRows], ?_⟩
  simp [cmdRows]
theorem wit_CommandCodecRoundTrips : (Command.off (some 0xFF)).wellFormed = true ∧
    ∀ v, Command.off (some 0xFF) ≠ .on (.level v) := ⟨by decide, fun _ h => by cases h⟩
theorem wit_RegistersAreWritten_payload : (after lastOfTwenty).isSome = true ∧ lastOfTwenty.edge.rst = false ∧
    ¬ (lastOfTwenty.st = .opc ∧ lastOfTwenty.transfers = true) := by decide
theorem wit_RegistersAreWritten_opcode : (after (selecting .rsp 0x60)).isSome = true ∧
    (selecting .rsp 0x60).edge.rst = false ∧ (selecting .rsp 0x60).st = .opc ∧ (selecting .rsp 0x60).transfers = true := by decide
/-- The third byte of `[0x02, 0x50, 0x11, 0x22, …]`, with other stale bytes behind it. -/
theorem wit_RegistersAreWritten_stale :
    Inv (taking .msg 0x50 6 [0x11, 0x22] 0x33) ∧ (after (taking .msg 0x50 6 [0x11, 0x22] 0x33)).isSome = true ∧
    SameLive (taking .msg 0x50 6 [0x11, 0x22] 0x33)
      { taking .msg 0x50 6 [0x11, 0x22] 0x33 with buf := (taking .msg 0x50 6 [0x11, 0x22] 0x33).buf.set 2 0xAA } := by
  refine ⟨by decide, by decide, ?_⟩
  unfold SameLive
  decide
theorem wit_RegistersAreWritten_fault : 20 ≤ ({ lastOfTwenty with cnt := 20 } : State).cnt.toNat ∧
    ¬ 20 ≤ lastOfTwenty.cnt.toNat := by decide
theorem wit_RowsRunOnlyInTheirPhase : (presenting 0x06 quietEdge).st ≠ rowPhase .marker := by decide

end Sys2Proof.Tests
end

section
/-! SUPPORT. 00_scope.md R7: a step refuses its parameters only where they fail the check, and what a parameter set that
passes has by (a), (c), (d) and (e); (b) is `lookup_unsupported_iff`. A set without one of these properties fails. -/

namespace Sys2Proof.Machine

/-! ## The refusal -/

theorem takePayload_ne_illFormedParams (b : Byte) (s : State) : takePayload b s ≠ .refused .illFormedParams := by
  by_cases hc : s.cnt.toNat < 20
  · simp [takePayload_eq hc]
  · simp [takePayload_fault hc]

theorem takeByte_ne_illFormedParams {s : State} (hp : s.params.ok = true) :
    takeByte exec s ≠ .refused .illFormedParams := by
  rw [takeByte_exec hp]
  cases s.st with
  | hunt =>
    simp only [if_true]
    split <;> simp
  | pay => simpa using takePayload_ne_illFormedParams s.edge.inData s
  | opc | out | eos => simp

theorem readEdge_ne_illFormedParams {s : State} (hp : s.params.ok = true) :
    readEdge exec s ≠ .refused .illFormedParams := by
  unfold readEdge
  split
  · simp
  · split
    · exact takeByte_ne_illFormedParams hp
    · simp

theorem presentEdge_ne_illFormedParams (s : State) : presentEdge s ≠ .refused .illFormedParams := by
  unfold presentEdge
  split <;> simp

theorem clockEdge_ne_illFormedParams {s : State} (hp : s.params.ok = true) :
    clockEdge exec s ≠ .refused .illFormedParams := by
  unfold clockEdge
  split
  · simp
  · cases s.st with
    | hunt | opc | pay => exact readEdge_ne_illFormedParams hp
    | out => exact presentEdge_ne_illFormedParams s
    | eos => simp

theorem step_of_ok {s : State} (hp : s.params.ok = true) : step s = clockEdge exec s := if_pos hp

theorem step_of_not_ok {s : State} (hp : s.params.ok = false) : step s = .refused .illFormedParams :=
  if_neg (Bool.eq_false_iff.mp hp)

theorem step_illFormedParams_iff (s : State) : step s = .refused .illFormedParams ↔ s.params.ok = false := by
  refine ⟨fun h => Bool.eq_false_iff.mpr fun hp => ?_, step_of_not_ok⟩
  rw [step_of_ok hp] at h
  exact clockEdge_ne_illFormedParams hp h

/-! ## What a well-formed parameter set has -/

/-- R7 (a), of every row the table lists. -/
theorem respTable_length_le {p : Params} (hp : p.ok = true) {op : Byte} {len : Len} {k : RspKind}
    (h : (op, RespEntry.entry len k) ∈ p.respTable) : len.toNat ≤ 20 := by
  obtain ⟨hlen, -⟩ := Params_ok_parts hp
  exact of_decide_eq_true (List.all_eq_true.mp hlen _ h)

/-- An opcode that `LOOKUP` knows in mode RSP is a row of the response table. -/
theorem respTable_mem_of_lookup {p : Params} {op : Byte} (h : lookup p .rsp op ≠ .none) :
    ∃ e, (op, e) ∈ p.respTable := by
  cases he : p.respTable.lookup op with
  | none => simp [lookup, he] at h
  | some e => exact ⟨e, lookup_mem he⟩

/-- R7 (c): no row stands in the message space. -/
theorem respTable_outside_message_space {p : Params} (hp : p.ok = true) {op : Byte} {e : RespEntry}
    (h : (op, e) ∈ p.respTable) : ¬ (0x50#8 ≤ op ∧ op ≤ 0x59#8) := by
  obtain ⟨-, -, hspace, -⟩ := Params_ok_parts hp
  have hrow := List.all_eq_true.mp hspace _ h
  rintro ⟨hlo, hhi⟩
  simp [hlo, hhi] at hrow

/-- R7 (c): a row outside `0x60`–`0x73` is an extension. -/
theorem respTable_foreign_is_extension {p : Params} (hp : p.ok = true) {op : Byte} {len : Len} {k : RspKind}
    (h : (op, RespEntry.entry len k) ∈ p.respTable) (hop : op < 0x60#8 ∨ 0x73#8 < op) :
    ∃ layout, k = .extension layout := by
  obtain ⟨-, -, hspace, -⟩ := Params_ok_parts hp
  have hrow := List.all_eq_true.mp hspace _ h
  rw [Bool.and_eq_true] at hrow
  obtain ⟨-, hkind⟩ := hrow
  cases k with
  | extension layout => exact ⟨layout, rfl⟩
  | _ =>
    simp only [Bool.and_eq_true, decide_eq_true_eq] at hkind
    bv_omega

/-- R7 (d): no two bytes have one button pair. -/
theorem buttonOf_inj {p : Params} (hp : p.ok = true) {a b : Byte}
    (hsome : buttonOf p a ≠ none) (hab : buttonOf p a = buttonOf p b) : a = b := by
  obtain ⟨bt, ha⟩ := Option.ne_none_iff_exists'.mp hsome
  have hb : buttonOf p b = some bt := hab ▸ ha
  rw [← buttonByte_iff hp] at ha hb
  exact Option.some.inj (ha.symm.trans hb)

/-- R7 (e): no two bytes have one role. -/
theorem linkRoleOf_inj {p : Params} (hp : p.ok = true) {a b : Byte}
    (hsome : linkRoleOf p a ≠ none) (hab : linkRoleOf p a = linkRoleOf p b) : a = b := by
  obtain ⟨role, ha⟩ := Option.ne_none_iff_exists'.mp hsome
  have hb : linkRoleOf p b = some role := hab ▸ ha
  obtain ⟨-, -, -, -, hroles, -⟩ := Params_ok_parts hp
  have hnodup : (p.linkRoleTable.map (·.2)).Nodup := (distinct_nodup _).mp hroles
  exact congrArg Prod.fst (List.inj_on_of_nodup_map hnodup (lookup_mem ha) (lookup_mem hb) rfl)

/-! ## O9 -/

/-- Settles O9: the refusal by the step's own case split, each break of R7 by the property of a well-formed parameter set
that it contradicts. -/
theorem illFormedParametersAreRefused : Obligations.IllFormedParametersAreRefused := by
  refine ⟨step_illFormedParams_iff, by decide, ?length, ?missing, ?second, ?message, ?foreign, ?noByte, ?twoBytes, ?role⟩
  all_goals intro p
  case length =>
    exact fun op len k hrow hlen => Bool.eq_false_iff.mpr fun hp =>
      absurd (respTable_length_le hp hrow) (Nat.not_le.mpr hlen)
  case missing =>
    exact fun hu => Bool.eq_false_iff.mpr fun hp => hu ((lookup_unsupported_iff hp _ _).mpr ⟨rfl, rfl⟩)
  case second =>
    exact fun op hop hu => Bool.eq_false_iff.mpr fun hp => hop ((lookup_unsupported_iff hp _ _).mp hu).2
  case message =>
    intro op hlo hhi hl
    obtain ⟨e, hrow⟩ := respTable_mem_of_lookup hl
    exact Bool.eq_false_iff.mpr fun hp => respTable_outside_message_space hp hrow ⟨hlo, hhi⟩
  case foreign =>
    intro op len k hl hop hk
    obtain ⟨_, ⟨rfl⟩, hrow⟩ := lookup_rsp_entry hl
    refine Bool.eq_false_iff.mpr fun hp => ?_
    obtain ⟨layout, hlayout⟩ := respTable_foreign_is_extension hp (lookup_mem hrow) hop
    exact hk layout hlayout
  case noByte =>
    intro bt hnone
    refine Bool.eq_false_iff.mpr fun hp => ?_
    obtain ⟨b, hb⟩ := buttonByte_isSome hp bt
    exact Option.some_ne_none b (hb.symm.trans hnone)
  case twoBytes =>
    exact fun a b hne hsome hab => Bool.eq_false_iff.mpr fun hp => hne (buttonOf_inj hp hsome hab)
  case role =>
    exact fun a b hne hsome hab => Bool.eq_false_iff.mpr fun hp => hne (linkRoleOf_inj hp hsome hab)

end Sys2Proof.Machine
end

section
/-! SUPPORT. The step by its four kinds of edge (40_sync.md R90): no byte transferred, a byte taken in HUNT, an opcode byte, a
payload byte. The equations say what each edge does; `step_next_iff` says that a step that goes on is one of them. -/

namespace Sys2Proof.Machine

/-! ## The pins and the phase -/

theorem inReady_iff {s : State} : s.inReady = true ↔ s.st = .hunt ∨ s.st = .opc ∨ s.st = .pay := by
  simp [State.inReady, or_assoc]

theorem outValid_iff {s : State} : s.outValid = true ↔ s.st = .out := by simp [State.outValid]

theorem outUnsup_iff {s : State} : s.outUnsup = true ↔ s.modeL = .rsp ∧ s.opcR = 0x62 := by simp [State.outUnsup]

theorem transfers_iff {s : State} :
    s.transfers = true ↔
      s.edge.rst = false ∧ s.inReady = true ∧ s.edge.inErr = false ∧ s.edge.inValid = true := by
  simp [State.transfers, and_assoc]

theorem handsOver_iff {s : State} :
    s.handsOver = true ↔ s.edge.rst = false ∧ s.st = .out ∧ s.edge.outReady = true := by
  simp [State.handsOver, outValid_iff, and_assoc]

theorem transfers_of_not_inReady {s : State} (h : s.inReady = false) : s.transfers = false := by
  simp [State.transfers, h]

/-- A byte is transferred in a read phase only, so no record is handed over on its edge (R90). -/
theorem handsOver_of_transfers {s : State} (h : s.transfers = true) : s.handsOver = false := by
  obtain ⟨-, hready, -, -⟩ := transfers_iff.mp h
  refine Bool.eq_false_iff.mpr fun hover => ?_
  obtain ⟨-, hst, -⟩ := handsOver_iff.mp hover
  simp [inReady_iff, hst] at hready

/-! ## The four kinds of edge -/

/-- The next state of an edge that transfers no byte: reset, source failure, hand-over, or nothing (R90, R101 to R104). -/
def silentEdge (s : State) : State :=
  if s.edge.rst then resetEdge s
  else if s.inReady && s.edge.inErr then s.tick.goto .eos
  else if s.handsOver then handOver s
  else s.tick

/-- The next state of a byte taken in HUNT: the marker starts a frame, any other byte is noise (R91, R92). -/
def scanByte (s : State) : State := if s.edge.inData = 0x02 then s.tick.goto .opc else s.tick

theorem readEdge_of_silent {s : State} (hrst : s.edge.rst = false) (hready : s.inReady = true)
    (h : s.transfers = false) :
    readEdge exec s = .next (if s.edge.inErr then s.tick.goto .eos else s.tick) := by
  unfold readEdge
  by_cases herr : s.edge.inErr = true
  · simp [herr, raise]
  · have hvalid : s.edge.inValid = false := by simpa [State.transfers, hrst, hready, herr] using h
    simp [herr, hvalid]

theorem step_of_silent {s : State} (hp : s.params.ok = true) (h : s.transfers = false) :
    step s = .next (silentEdge s) := by
  rw [step_of_ok hp]
  unfold clockEdge silentEdge
  by_cases hrst : s.edge.rst = true
  · simp only [hrst, if_true]
  · rw [Bool.not_eq_true] at hrst
    cases hst : s.st with
    | hunt | opc | pay =>
      have hready : s.inReady = true := by simp [inReady_iff, hst]
      have hover : s.handsOver = false := by simp [State.handsOver, State.outValid, hst]
      simp [hrst, hover, readEdge_of_silent hrst hready h, hready]
    | out =>
      have hready : s.inReady = false := by simp [State.inReady, hst]
      have hover : s.handsOver = s.edge.outReady := by simp [State.handsOver, State.outValid, hst, hrst]
      simp only [hrst, hready, hover, presentEdge]
      cases s.edge.outReady <;> rfl
    | eos => simp [hrst, State.handsOver, State.outValid, State.inReady, hst]

theorem step_of_transfers {s : State} (hp : s.params.ok = true) (h : s.transfers = true) :
    step s = takeByte exec s := by
  obtain ⟨hrst, hready, herr, hvalid⟩ := transfers_iff.mp h
  rw [step_of_ok hp]
  rcases inReady_iff.mp hready with hst | hst | hst <;> simp [clockEdge, readEdge, hrst, hst, herr, hvalid]

theorem step_of_scan {s : State} (hp : s.params.ok = true) (hst : s.st = .hunt) (h : s.transfers = true) :
    step s = .next (scanByte s) := by
  rw [step_of_transfers hp h, takeByte_exec hp, if_pos hst, scanByte]
  split <;> rfl

theorem step_of_opcode {s : State} (hp : s.params.ok = true) (hst : s.st = .opc) (h : s.transfers = true) :
    step s = .next (acceptOpcode s.edge.inData s) := by
  rw [step_of_transfers hp h, takeByte_exec hp]
  simp [hst]

theorem step_of_payload {s : State} (hp : s.params.ok = true) (hst : s.st = .pay) (h : s.transfers = true) :
    step s = takePayload s.edge.inData s := by
  rw [step_of_transfers hp h, takeByte_exec hp]
  simp [hst]

/-! ## What a step can be -/

/-- The next states of a state, one constructor per kind of edge. -/
inductive StepCase (s : State) : State → Prop
  | silent (htr : s.transfers = false) : StepCase s (silentEdge s)
  | scan (hst : s.st = .hunt) (htr : s.transfers = true) : StepCase s (scanByte s)
  | opcode (hst : s.st = .opc) (htr : s.transfers = true) : StepCase s (acceptOpcode s.edge.inData s)
  | payload (hst : s.st = .pay) (htr : s.transfers = true) (hcnt : s.cnt.toNat < 20) :
      StepCase s (afterPayload s.edge.inData s)

theorem step_of_case {s t : State} (hp : s.params.ok = true) (h : StepCase s t) : step s = .next t := by
  cases h with
  | silent htr => exact step_of_silent hp htr
  | scan hst htr => exact step_of_scan hp hst htr
  | opcode hst htr => exact step_of_opcode hp hst htr
  | payload hst htr hcnt => rw [step_of_payload hp hst htr, takePayload_eq hcnt]

/-- Only a payload edge outside the buffer has no next state. -/
theorem exists_stepCase {s : State} (h : s.st = .pay → s.transfers = true → s.cnt.toNat < 20) : ∃ t, StepCase s t := by
  cases htr : s.transfers with
  | false => exact ⟨_, .silent htr⟩
  | true =>
    obtain ⟨-, hready, -, -⟩ := transfers_iff.mp htr
    rcases inReady_iff.mp hready with hst | hst | hst
    · exact ⟨_, .scan hst htr⟩
    · exact ⟨_, .opcode hst htr⟩
    · exact ⟨_, .payload hst htr (h hst htr)⟩

theorem params_ok_of_step {s t : State} (h : step s = .next t) : s.params.ok = true := by
  by_contra hp
  rw [step_of_not_ok (Bool.eq_false_iff.mpr hp)] at h
  cases h

/-- A step goes on exactly under well-formed parameters, by one of the four kinds of edge. -/
theorem step_next_iff {s t : State} : step s = .next t ↔ s.params.ok = true ∧ StepCase s t := by
  refine ⟨fun h => ?_, fun ⟨hp, hcase⟩ => step_of_case hp hcase⟩
  have hp := params_ok_of_step h
  have hbuf (hst : s.st = .pay) (htr : s.transfers = true) : s.cnt.toNat < 20 := by
    rw [step_of_payload hp hst htr] at h
    exact (takePayload_next h).1
  obtain ⟨v, hcase⟩ := exists_stepCase hbuf
  have hv : Host.Outcome.next v = .next t := (step_of_case hp hcase).symm.trans h
  injection hv with hv
  exact ⟨hp, hv ▸ hcase⟩

/-! ## What each kind of edge leaves unchanged -/

theorem silentEdge_params (s : State) : (silentEdge s).params = s.params := by
  unfold silentEdge; split_ifs <;> rfl

/-- Without a byte the sink grows by a hand-over only (R101). -/
theorem silentEdge_sink (s : State) :
    (silentEdge s).sink = s.sink ++ (if s.handsOver = true then s.record.toList else []) := by
  by_cases hover : s.handsOver = true
  · obtain ⟨hrst, hst, -⟩ := handsOver_iff.mp hover
    simp [silentEdge, hover, hrst, State.inReady, hst]
  · unfold silentEdge
    split_ifs <;> simp

/-- Without a byte and without reset the frame's registers stay (R27 to R31). -/
theorem silentEdge_registers {s : State} (hrst : s.edge.rst = false) :
    (silentEdge s).opcR = s.opcR ∧ (silentEdge s).modeL = s.modeL ∧ (silentEdge s).lenR = s.lenR ∧
      (silentEdge s).cnt = s.cnt ∧ (silentEdge s).buf = s.buf := by
  unfold silentEdge
  simp only [hrst, Bool.false_eq_true, if_false]
  split_ifs <;> simp

/-- A byte in HUNT moves `ST` only (R91, R92). -/
theorem scanByte_eq (s : State) : ∃ p, (p = s.st ∨ p = .opc) ∧ scanByte s = s.tick.goto p := by
  unfold scanByte
  split
  · exact ⟨.opc, .inr rfl, rfl⟩
  · exact ⟨s.st, .inl rfl, rfl⟩

/-- An opcode byte writes `OPC_R`, `MODE_L` and `CNT` with the byte, the mode input and 0, and `ST` and `LEN_R` by the table;
nothing else (R93 to R97). -/
theorem acceptOpcode_frame {s : State} (hp : s.params.ok = true) (op : Byte) :
    ∃ p len, acceptOpcode op s = { s with
      st := p, opcR := op, modeL := s.edge.mode, cnt := 0, lenR := len, inputs := s.inputs.tail } := by
  rw [acceptOpcode_eq op s fun hu => ((lookup_unsupported_iff hp _ _).mp hu).1]
  cases lookup s.params s.edge.mode op with
  | none => exact ⟨_, _, rfl⟩
  | unsupported => exact ⟨_, _, rfl⟩
  | entry len k =>
    dsimp only
    split_ifs
    · exact ⟨_, _, rfl⟩
    · exact ⟨_, _, rfl⟩

end Sys2Proof.Machine
end

section
/-! SUPPORT. 10_state.md R35: the invariant holds at reset, every kind of edge keeps it, and in it every edge has a next
state (O8, O12 to O14). -/

namespace Sys2Proof.Machine

/-! ## The invariant, phase by phase -/

theorem inv_of_idle_phase {s : State} (hpay : s.st ≠ .pay) (hout : s.st ≠ .out) : Inv s := by
  simp [Inv, hpay, hout]

theorem inv_pay_iff {s : State} (hst : s.st = .pay) :
    Inv s ↔ (1 ≤ s.lenR.toNat ∧ s.lenR.toNat ≤ 20 ∧ s.cnt.toNat < s.lenR.toNat) ∧
      entryLength s.params s.modeL s.opcR = some s.lenR := by
  simp [Inv, hst]

theorem inv_out_iff {s : State} (hst : s.st = .out) :
    Inv s ↔ s.cnt = s.lenR ∧ (s.outUnsup = true → s.lenR = 0) ∧
      (s.outUnsup = false → s.frameValid = true ∧ entryLength s.params s.modeL s.opcR = some s.lenR) := by
  simp [Inv, hst, forall_and]

theorem entryLength_eq_some {p : Params} {m : Mode} {op : Byte} {len : Len} :
    entryLength p m op = some len ↔ ∃ k, lookup p m op = .entry len k := by
  unfold entryLength
  cases h : lookup p m op <;> simp

/-- An opcode with an entry is not the one that `out_unsup` reports (00_scope.md R7 (b)). -/
theorem outUnsup_of_entry {s : State} {len : Len} (hp : s.params.ok = true)
    (h : entryLength s.params s.modeL s.opcR = some len) : s.outUnsup = false := by
  refine Bool.eq_false_iff.mpr fun hu => ?_
  obtain ⟨k, hk⟩ := entryLength_eq_some.mp h
  have hnone := (lookup_unsupported_iff hp s.modeL s.opcR).mpr (outUnsup_iff.mp hu)
  rw [hk] at hnone
  cases hnone

/-- A record of an entry is presented with its whole payload taken and its check passed. -/
theorem inv_of_presented {s : State} (hp : s.params.ok = true) (hst : s.st = .out) (hcnt : s.cnt = s.lenR)
    (hvalid : s.frameValid = true) (hlen : entryLength s.params s.modeL s.opcR = some s.lenR) : Inv s := by
  rw [inv_out_iff hst]
  exact ⟨hcnt, by simp [outUnsup_of_entry hp hlen], fun _ => ⟨hvalid, hlen⟩⟩

/-! ## Every kind of edge keeps it -/

theorem silentEdge_keeps_inv {s : State} (h : Inv s) : Inv (silentEdge s) := by
  unfold silentEdge
  split_ifs
  · exact inv_of_idle_phase (by simp) (by simp)
  · exact inv_of_idle_phase (by simp) (by simp)
  · exact inv_of_idle_phase (by simp) (by simp)
  · exact h

theorem scanByte_meets_inv {s : State} (hst : s.st = .hunt) : Inv (scanByte s) := by
  obtain ⟨p, hp, heq⟩ := scanByte_eq s
  rw [heq]
  apply inv_of_idle_phase <;> rcases hp with rfl | rfl <;> simp [hst]

/-- The opcode edge sets the invariant up from any state, whatever the registers held. -/
theorem acceptOpcode_meets_inv {s : State} (hp : s.params.ok = true) (op : Byte) : Inv (acceptOpcode op s) := by
  cases hl : lookup s.params s.edge.mode op with
  | none =>
    rw [acceptOpcode_none hl]
    exact inv_of_idle_phase (by simp) (by simp)
  | unsupported =>
    obtain ⟨-, rfl⟩ := (lookup_unsupported_iff hp _ _).mp hl
    rw [acceptOpcode_unsupported hl, inv_out_iff rfl]
    simp [State.outUnsup]
  | entry len k =>
    by_cases h0 : len = 0
    · subst h0
      rw [acceptOpcode_zero hl]
      exact inv_of_presented hp rfl rfl (valid_zero hl _) (entryLength_eq_some.mpr ⟨k, hl⟩)
    · have hpos : 0 < len.toNat := by
        have : len.toNat ≠ 0 := fun h => h0 (BitVec.eq_of_toNat_eq h)
        omega
      rw [acceptOpcode_entry hl h0, inv_pay_iff rfl]
      exact ⟨⟨hpos, lookup_length_le hp hl, hpos⟩, entryLength_eq_some.mpr ⟨k, hl⟩⟩

theorem cnt_succ_toNat {s : State} (h : s.cnt.toNat < 20) : (s.cnt + 1).toNat = s.cnt.toNat + 1 := by
  bv_omega

/-- The payload edge: the frame goes on, is presented, or is discarded. -/
theorem afterPayload_keeps_inv {s : State} (hp : s.params.ok = true) (hst : s.st = .pay) (h : Inv s) (b : Byte) :
    Inv (afterPayload b s) := by
  obtain ⟨⟨hpos, hle, hlt⟩, hlen⟩ := (inv_pay_iff hst).mp h
  have hcnt : s.cnt.toNat < 20 := by omega
  by_cases hlast : s.cnt + 1 = s.lenR
  · cases hv : valid s.params s.modeL s.opcR (payloadOf s.opcR (s.buf.set s.cnt.toNat b) s.lenR) with
    | true =>
      rw [afterPayload_last hcnt rfl hlast hv]
      exact inv_of_presented hp rfl rfl hv hlen
    | false =>
      rw [afterPayload_discard hcnt rfl hlast hv]
      exact inv_of_idle_phase (by simp) (by simp)
  · have hne : s.cnt.toNat + 1 ≠ s.lenR.toNat := fun h =>
      hlast (BitVec.eq_of_toNat_eq ((cnt_succ_toNat hcnt).trans h))
    have hgoes : (afterPayload b s).st = .pay := (if_neg hlast).trans hst
    refine (inv_pay_iff hgoes).mpr ⟨⟨hpos, hle, ?_⟩, hlen⟩
    calc (s.cnt + 1).toNat = s.cnt.toNat + 1 := cnt_succ_toNat hcnt
      _ < s.lenR.toNat := by omega

theorem stepCase_keeps_inv {s t : State} (hp : s.params.ok = true) (h : Inv s) (hcase : StepCase s t) : Inv t := by
  cases hcase with
  | silent => exact silentEdge_keeps_inv h
  | scan hst => exact scanByte_meets_inv hst
  | opcode => exact acceptOpcode_meets_inv hp _
  | payload hst => exact afterPayload_keeps_inv hp hst h _

/-! ## O8, O12 to O14 -/

/-- Settles O12: each kind of edge keeps the invariant. -/
theorem stepKeepsInvariant : Obligations.StepKeepsInvariant := by
  intro s t h hstep
  obtain ⟨hp, hcase⟩ := step_next_iff.mp hstep
  exact stepCase_keeps_inv hp h hcase

/-- Settles O14: in PAY the invariant holds `CNT` below `LEN_R`, so inside the buffer. -/
theorem stepNeverStops : Obligations.StepNeverStops := by
  intro s hp h
  have hbuf (hst : s.st = .pay) (_ : s.transfers = true) : s.cnt.toNat < 20 := by
    obtain ⟨⟨-, hle, hlt⟩, -⟩ := (inv_pay_iff hst).mp h
    omega
  obtain ⟨t, hcase⟩ := exists_stepCase hbuf
  exact ⟨t, step_of_case hp hcase⟩

/-- Settles O8: the ports at reset, all of them decided by `ST`. -/
theorem resetStateHunts : Obligations.ResetStateHunts := by
  have hst : State.reset.st = .hunt := rfl
  have hvalid : State.reset.outValid = false := by simp [State.outValid, hst]
  exact ⟨hst, inReady_iff.mpr (.inl hst), hvalid, by simp [State.eos, hst], by simp [State.presented, hvalid]⟩

/-- Settles O13: reset is in HUNT, and the default tables pass the check. -/
theorem resetMeetsInvariant : Obligations.ResetMeetsInvariant :=
  ⟨inv_of_idle_phase (by simp [State.reset]) (by simp [State.reset]), by decide⟩

end Sys2Proof.Machine
end

section
/-! SUPPORT. The output ports (10_state.md R25) and what the environment sees of a step: the parameters, the sink, a held
record, the pins that are not sampled (O15 to O17, O19, O21). -/

namespace Sys2Proof.Machine

/-! ## The packed payload port -/

/-- Bits `8i` to `8i+7` of the bytes side by side are byte `i`, while the bytes fit the port. -/
theorem packBytes_extract {bs : List Byte} (hfit : bs.length ≤ 20) {i : Nat} (hi : i < bs.length) :
    (packBytes bs).extractLsb' (8 * i) 8 = bs[i] := by
  induction bs generalizing i with
  | nil => simp at hi
  | cons b bs ih =>
    simp only [List.length_cons] at hfit hi
    cases i with
    | zero =>
      ext j hj
      have hin : j < 160 := by omega
      simp [packBytes, hj, hin, BitVec.getLsbD_eq_getElem]
    | succ i =>
      rw [List.getElem_cons_succ, ← ih (by omega) (by omega)]
      ext j hj
      have hin : 8 * (i + 1) + j < 160 := by omega
      have hpast : b.getLsbD (8 * (i + 1) + j) = false := BitVec.getLsbD_of_ge _ _ (by omega)
      have hlow : ¬ 8 * (i + 1) + j < 8 := by omega
      have hshift : 8 * (i + 1) + j - 8 = 8 * i + j := by omega
      have hin' : 8 * i + j < 160 := by omega
      simp [packBytes, hin, hpast, hlow, hshift, BitVec.getLsbD_eq_getElem hin']

theorem outPayload_extract (s : State) (i : Fin 20) : s.outPayload.extractLsb' (8 * i.val) 8 = s.buf[i] := by
  have hi : i.val < s.buf.toList.length := by simp
  simpa [State.outPayload] using packBytes_extract (by simp) hi

/-! ## A step seen from outside -/

theorem afterPayload_params (b : Byte) (s : State) : (afterPayload b s).params = s.params := rfl
theorem afterPayload_sink (b : Byte) (s : State) : (afterPayload b s).sink = s.sink := rfl

theorem stepCase_params {s t : State} (hp : s.params.ok = true) (hcase : StepCase s t) : t.params = s.params := by
  cases hcase with
  | silent => exact silentEdge_params s
  | scan => obtain ⟨p, -, heq⟩ := scanByte_eq s; simp [heq]
  | opcode => obtain ⟨p, len, heq⟩ := acceptOpcode_frame hp s.edge.inData; simp [heq]
  | payload => exact afterPayload_params _ s

/-- An edge that transfers a byte hands nothing over. -/
theorem stepCase_sink {s t : State} (hp : s.params.ok = true) (hcase : StepCase s t) :
    t.sink = s.sink ++ (if s.handsOver = true then s.record.toList else []) := by
  cases hcase with
  | silent => exact silentEdge_sink s
  | scan _ htr =>
    obtain ⟨p, -, heq⟩ := scanByte_eq s
    simp [heq, handsOver_of_transfers htr]
  | opcode _ htr =>
    obtain ⟨p, len, heq⟩ := acceptOpcode_frame hp s.edge.inData
    simp [heq, handsOver_of_transfers htr]
  | payload _ htr => simp [afterPayload_sink, handsOver_of_transfers htr]

/-- Where a record is held, the edge changes nothing (R101). -/
theorem silentEdge_of_held {s : State} (hst : s.st = .out) (hrst : s.edge.rst = false)
    (hheld : s.edge.outReady = false) : silentEdge s = s.tick := by
  simp [silentEdge, hrst, State.inReady, hst, State.handsOver, hheld]

/-- Under the same parameters, edges without a byte step alike where their next states do. -/
theorem step_congr_of_silent {s u : State} (hparams : s.params = u.params) (hs : s.transfers = false)
    (hu : u.transfers = false) (h : silentEdge s = silentEdge u) : step s = step u := by
  cases hp : s.params.ok with
  | false => rw [step_of_not_ok hp, step_of_not_ok (hparams ▸ hp)]
  | true => rw [step_of_silent hp hs, step_of_silent (hparams ▸ hp) hu, h]

/-! ## O15 to O17, O19, O21 -/

/-- Settles O15: each kind of edge leaves the parameters. -/
theorem parametersNeverChange : Obligations.ParametersNeverChange := by
  intro s t hstep
  obtain ⟨hp, hcase⟩ := step_next_iff.mp hstep
  exact stepCase_params hp hcase

/-- Settles O16: only the hand-over writes the sink, and no byte is transferred on its edge. -/
theorem sinkGrowsOnlyByHandOver : Obligations.SinkGrowsOnlyByHandOver := by
  intro s t hstep
  obtain ⟨hp, hcase⟩ := step_next_iff.mp hstep
  exact stepCase_sink hp hcase

/-- Settles O17: a held edge consumes the pins and changes nothing else. -/
theorem heldRecordIsConstant : Obligations.HeldRecordIsConstant := by
  intro s t hst hrst hheld hstep
  have hready : s.inReady = false := by simp [State.inReady, hst]
  rw [step_of_silent (params_ok_of_step hstep) (transfers_of_not_inReady hready),
    silentEdge_of_held hst hrst hheld] at hstep
  injection hstep with heq
  subst heq
  exact ⟨outValid_iff.mpr hst, rfl, hready, by simp [State.eos, hst]⟩

/-- Settles O19: without a transfer the step is the silent edge, which reads no `in_data`, and reads `in_err` only while
`in_ready` is 1. -/
theorem unsampledInputsAreIgnored : Obligations.UnsampledInputsAreIgnored := by
  constructor
  · intro s e b r htr
    exact step_congr_of_silent rfl htr htr rfl
  · intro s e v f r hready
    refine step_congr_of_silent rfl (transfers_of_not_inReady hready) (transfers_of_not_inReady hready) ?_
    have hno : ∀ es : List Edge, ({ s with inputs := es } : State).inReady = false := fun _ => hready
    simp only [silentEdge, hno, Bool.false_and]
    rfl

/-- Settles O21. -/
theorem outputsAreFunctionsOfRegisters : Obligations.OutputsAreFunctionsOfRegisters := by
  intro s
  refine ⟨inReady_iff, outValid_iff, by simp [State.eos], outUnsup_iff, outPayload_extract s, fun hst => ?_⟩
  exact ⟨_, if_pos (outValid_iff.mpr hst), rfl, rfl, rfl, rfl, rfl, rfl⟩

end Sys2Proof.Machine
end

section
/-! SUPPORT. 10_state.md R27 to R31 and R34: which edge writes which register, and that no rule reads a stale one (O59). -/

namespace Sys2Proof.Machine

/-! ## Which edge writes which register -/

/-- On every edge but an opcode edge the frame's registers stay, and only a payload edge counts `CNT` up. -/
theorem stepCase_registers {s t : State} (hrst : s.edge.rst = false) (hcase : StepCase s t)
    (hop : ¬ (s.st = .opc ∧ s.transfers = true)) :
    t.opcR = s.opcR ∧ t.modeL = s.modeL ∧ t.lenR = s.lenR ∧
      t.cnt = (if s.st = .pay ∧ s.transfers = true then s.cnt + 1 else s.cnt) := by
  cases hcase with
  | silent htr =>
    obtain ⟨hopc, hmode, hlen, hcnt, -⟩ := silentEdge_registers hrst
    simp [hopc, hmode, hlen, hcnt, htr]
  | scan hst =>
    obtain ⟨p, -, heq⟩ := scanByte_eq s
    simp [heq, hst]
  | opcode hst htr => exact absurd ⟨hst, htr⟩ hop
  | payload hst htr =>
    rw [if_pos ⟨hst, htr⟩]
    exact ⟨rfl, rfl, rfl, rfl⟩

/-- A buffer byte is written by the payload edge at its index only. -/
theorem stepCase_buf {s t : State} (hp : s.params.ok = true) (hrst : s.edge.rst = false) (hcase : StepCase s t)
    (i : Fin 20) :
    t.buf[i] = if s.st = .pay ∧ s.transfers = true ∧ s.cnt.toNat = i.val then s.edge.inData else s.buf[i] := by
  cases hcase with
  | silent htr =>
    obtain ⟨-, -, -, -, hbuf⟩ := silentEdge_registers hrst
    simp [hbuf, htr]
  | scan hst =>
    obtain ⟨p, -, heq⟩ := scanByte_eq s
    simp [heq, hst]
  | opcode hst =>
    obtain ⟨p, len, heq⟩ := acceptOpcode_frame hp s.edge.inData
    simp [heq, hst]
  | payload hst htr => simp [afterPayload, hst, htr, Vector.getElem_setIfInBounds]

theorem step_opcode_registers {s t : State} (hstep : step s = .next t) (hst : s.st = .opc)
    (htr : s.transfers = true) : t.opcR = s.edge.inData ∧ t.modeL = s.edge.mode ∧ t.cnt = 0 := by
  have hp := params_ok_of_step hstep
  obtain ⟨p, len, heq⟩ := acceptOpcode_frame hp s.edge.inData
  rw [step_of_opcode hp hst htr, heq] at hstep
  injection hstep with hstep
  subst hstep
  exact ⟨rfl, rfl, rfl⟩

theorem takePayload_fault_iff (s : State) (b : Byte) : takePayload b s = .fault .bufferIndex ↔ 20 ≤ s.cnt.toNat := by
  refine ⟨fun h => ?_, fun h => takePayload_fault (Nat.not_lt.mpr h)⟩
  by_contra hc
  rw [takePayload_eq (Nat.not_le.mp hc)] at h
  cases h

/-! ## No stale register is read -/

/-- Outside PAY and OUT no register of the frame is live. -/
theorem sameLive_of_idle_phase {s u : State} (hst : s.st = u.st) (hparams : s.params = u.params)
    (hinputs : s.inputs = u.inputs) (hsink : s.sink = u.sink) (hdraws : s.draws = u.draws)
    (hpay : s.st ≠ .pay) (hout : s.st ≠ .out) : SameLive s u :=
  ⟨hst, hparams, hinputs, hsink, hdraws, fun h => absurd h hpay, fun h => absurd h hout⟩

theorem SameLive.edge_eq {s u : State} (h : SameLive s u) : s.edge = u.edge := by
  obtain ⟨-, -, hinputs, -⟩ := h
  exact congrArg (·.headD quietEdge) hinputs

theorem SameLive.inReady_eq {s u : State} (h : SameLive s u) : s.inReady = u.inReady := by
  simp only [State.inReady, h.1]

theorem SameLive.transfers_eq {s u : State} (h : SameLive s u) : s.transfers = u.transfers := by
  simp only [State.transfers, h.edge_eq, h.inReady_eq]

theorem SameLive.handsOver_eq {s u : State} (h : SameLive s u) : s.handsOver = u.handsOver := by
  simp only [State.handsOver, State.outValid, h.edge_eq, h.1]

theorem SameLive.cnt_eq {s u : State} (h : SameLive s u) (hst : s.st = .pay) : s.cnt = u.cnt := by
  obtain ⟨-, -, -, -, -, hpay, -⟩ := h
  obtain ⟨-, -, -, hcnt, -⟩ := hpay hst
  exact hcnt

/-- The presented record is a function of the frame's own registers and bytes. -/
theorem SameLive.record_eq {s u : State} (h : SameLive s u) : s.record = u.record := by
  obtain ⟨hst, hparams, -, -, -, -, hframe⟩ := h
  by_cases hout : s.st = .out
  · obtain ⟨hmode, hopc, hlen, hbytes⟩ := hframe hout
    have hpayload : s.payload = u.payload := by
      simp only [State.payload, ← hopc, ← hlen, payloadOf_congr hbytes]
    have hvalid : s.outValid = u.outValid := by simp only [State.outValid, hst]
    have hunsup : s.outUnsup = u.outUnsup := by simp only [State.outUnsup, hmode, hopc]
    rw [State.record, State.record, hvalid, hunsup, hparams, hmode, hopc, hpayload]
  · simp [State.record, State.outValid, hout, ← hst]

theorem sameLive_tick {s u : State} (h : SameLive s u) : SameLive s.tick u.tick := by
  obtain ⟨hst, hparams, hinputs, hsink, hdraws, hpay, hout⟩ := h
  exact ⟨hst, hparams, congrArg List.tail hinputs, hsink, hdraws, hpay, hout⟩

theorem sameLive_goto_idle {s u : State} (h : SameLive s u) {p : Phase} (hpay : p ≠ .pay) (hout : p ≠ .out) :
    SameLive (s.goto p) (u.goto p) := by
  obtain ⟨-, hparams, hinputs, hsink, hdraws, -, -⟩ := h
  exact sameLive_of_idle_phase rfl hparams hinputs hsink hdraws hpay hout

theorem sameLive_resetEdge {s u : State} (h : SameLive s u) : SameLive (resetEdge s) (resetEdge u) := by
  obtain ⟨-, hparams, hinputs, hsink, hdraws, -, -⟩ := h
  exact sameLive_of_idle_phase rfl hparams (congrArg List.tail hinputs) hsink (congrArg (· + 1) hdraws)
    (by simp) (by simp)

theorem sameLive_handOver {s u : State} (h : SameLive s u) : SameLive (handOver s) (handOver u) := by
  have hrecord := h.record_eq
  obtain ⟨-, hparams, hinputs, hsink, hdraws, -, -⟩ := h
  exact sameLive_of_idle_phase rfl hparams (congrArg List.tail hinputs) (by simp [hsink, hrecord]) hdraws
    (by simp) (by simp)

theorem sameLive_silentEdge {s u : State} (h : SameLive s u) : SameLive (silentEdge s) (silentEdge u) := by
  unfold silentEdge
  rw [← h.edge_eq, ← h.inReady_eq, ← h.handsOver_eq]
  split_ifs
  · exact sameLive_resetEdge h
  · exact sameLive_goto_idle (sameLive_tick h) (by simp) (by simp)
  · exact sameLive_handOver h
  · exact sameLive_tick h

theorem sameLive_scanByte {s u : State} (h : SameLive s u) : SameLive (scanByte s) (scanByte u) := by
  unfold scanByte
  rw [← h.edge_eq]
  split_ifs
  · exact sameLive_goto_idle (sameLive_tick h) (by simp) (by simp)
  · exact sameLive_tick h

/-- The opcode edge writes every register of the frame, so it reads none. -/
theorem sameLive_acceptOpcode {s u : State} (h : SameLive s u) (op : Byte) :
    SameLive (acceptOpcode op s) (acceptOpcode op u) := by
  have hedge := h.edge_eq
  obtain ⟨-, hparams, hinputs, hsink, hdraws, -, -⟩ := h
  have htail := congrArg List.tail hinputs
  cases hl : lookup s.params s.edge.mode op with
  | none =>
    rw [acceptOpcode_none hl, acceptOpcode_none (hparams ▸ hedge ▸ hl)]
    exact sameLive_of_idle_phase rfl hparams htail hsink hdraws (by simp) (by simp)
  | unsupported =>
    rw [acceptOpcode_unsupported hl, acceptOpcode_unsupported (hparams ▸ hedge ▸ hl)]
    exact ⟨rfl, hparams, htail, hsink, hdraws, by simp, by simp⟩
  | entry len k =>
    by_cases h0 : len = 0
    · subst h0
      rw [acceptOpcode_zero hl, acceptOpcode_zero (hparams ▸ hedge ▸ hl)]
      exact ⟨rfl, hparams, htail, hsink, hdraws, by simp, by simp [hedge]⟩
    · rw [acceptOpcode_entry hl h0, acceptOpcode_entry (hparams ▸ hedge ▸ hl) h0]
      exact ⟨rfl, hparams, htail, hsink, hdraws, by simp [hedge], by simp⟩

/-- Storing the next byte adds it to the bytes taken so far. -/
theorem take_succ_setIfInBounds (v : Vector Byte 20) {n : Nat} (hn : n < 20) (b : Byte) :
    (v.setIfInBounds n b).toList.take (n + 1) = v.toList.take n ++ [b] := by
  have hlen : n < (v.toList.set n b).length := by simpa using hn
  have hset : (v.setIfInBounds n b).toList = v.toList.set n b := by
    simp [Vector.toList, Vector.setIfInBounds]
  rw [hset, List.take_succ_eq_append_getElem hlen, List.getElem_set_self, List.take_set_of_le (Nat.le_refl n)]

/-- The payload edge reads the bytes taken so far and the byte it stores. -/
theorem sameLive_afterPayload {s u : State} (h : SameLive s u) (hst : s.st = .pay) (hcnt : s.cnt.toNat < 20)
    (b : Byte) : SameLive (afterPayload b s) (afterPayload b u) := by
  obtain ⟨hstu, hparams, hinputs, hsink, hdraws, hpay, -⟩ := h
  obtain ⟨hmode, hopc, hlen, hcntu, hbytes⟩ := hpay hst
  have hstored : (afterPayload b s).buf.toList.take (s.cnt + 1).toNat =
      (afterPayload b u).buf.toList.take (s.cnt + 1).toNat := by
    show (s.buf.setIfInBounds s.cnt.toNat b).toList.take _ = (u.buf.setIfInBounds u.cnt.toNat b).toList.take _
    rw [cnt_succ_toNat hcnt, ← hcntu, take_succ_setIfInBounds s.buf hcnt, take_succ_setIfInBounds u.buf hcnt, hbytes]
  have hwhole (hlast : s.cnt + 1 = s.lenR) : (afterPayload b s).buf.toList.take s.lenR.toNat =
      (afterPayload b u).buf.toList.take s.lenR.toNat := hlast ▸ hstored
  have hphase : (afterPayload b s).st = (afterPayload b u).st := by
    show (if s.cnt + 1 = s.lenR then _ else _) = if u.cnt + 1 = u.lenR then _ else _
    rw [← hcntu, ← hlen, hstu]
    by_cases hlast : s.cnt + 1 = s.lenR
    · rw [if_pos hlast, if_pos hlast]
      have hpayload := payloadOf_congr (op := s.opcR) (hwhole hlast)
      simp only [afterPayload, ← hcntu] at hpayload
      rw [← hparams, ← hmode, ← hopc, hpayload]
    · rw [if_neg hlast, if_neg hlast]
  refine ⟨hphase, hparams, congrArg List.tail hinputs, hsink, hdraws, fun _ => ?_, fun hout => ?_⟩
  · exact ⟨hmode, hopc, hlen, congrArg (· + 1) hcntu, hstored⟩
  · have hlast : s.cnt + 1 = s.lenR := by
      by_contra hn
      have hgoes : (afterPayload b s).st = .pay := (if_neg hn).trans hst
      rw [hgoes] at hout
      cases hout
    exact ⟨hmode, hopc, hlen, hwhole hlast⟩

/-- States that agree on what the rules read take the same kind of edge and agree so again. -/
theorem sameLive_stepCase {s u t : State} (h : SameLive s u) (hcase : StepCase s t) :
    ∃ v, StepCase u v ∧ SameLive t v := by
  have htru := h.transfers_eq
  have hedge := h.edge_eq
  have hstu := h.1
  cases hcase with
  | silent htr => exact ⟨_, .silent (htru ▸ htr), sameLive_silentEdge h⟩
  | scan hst htr => exact ⟨_, .scan (hstu ▸ hst) (htru ▸ htr), sameLive_scanByte h⟩
  | opcode hst htr =>
    exact ⟨_, .opcode (hstu ▸ hst) (htru ▸ htr), hedge ▸ sameLive_acceptOpcode h s.edge.inData⟩
  | payload hst htr hcnt =>
    have hcntu := h.cnt_eq hst
    exact ⟨_, .payload (hstu ▸ hst) (htru ▸ htr) (hcntu ▸ hcnt), hedge ▸ sameLive_afterPayload h hst hcnt s.edge.inData⟩

/-! ## O59 -/

/-- Settles O59: the registers by the kind of edge, the stale ones by `sameLive_stepCase`, the fault by the buffer's bound. -/
theorem registersAreWrittenOnlyByTheirEdges : Obligations.RegistersAreWrittenOnlyByTheirEdges := by
  refine ⟨fun s t hstep hrst => ?written, fun s u t _ hlive hstep => ?stale, takePayload_fault_iff⟩
  case written =>
    obtain ⟨hp, hcase⟩ := step_next_iff.mp hstep
    exact ⟨fun ⟨hst, htr⟩ => step_opcode_registers hstep hst htr, stepCase_registers hrst hcase,
      stepCase_buf hp hrst hcase⟩
  case stale =>
    obtain ⟨hp, hcase⟩ := step_next_iff.mp hstep
    obtain ⟨v, hcaseu, hlivev⟩ := sameLive_stepCase hlive hcase
    obtain ⟨-, hparams, -⟩ := hlive
    exact ⟨v, step_of_case (hparams ▸ hp) hcaseu, hlivev, hlivev.record_eq⟩

end Sys2Proof.Machine
end

section
/-! SUPPORT. 10_state.md R36: a row is refused in every phase but its own (log entry 13; O60). -/

namespace Sys2Proof.Machine

theorem runFrame_refused {k : Kind} {e : FrameEdge} {s : State} (h : s.st ≠ edgePhase e) :
    runFrame k e s = .refused .notAtPosition := by
  cases e with
  | accept op =>
    have hst : s.st ≠ .opc := h
    simp [runFrame, State.atOpcode, hst]
  | payload b =>
    have hst : s.st ≠ .pay := h
    simp [runFrame, State.inPayload, hst]

theorem runCommand_refused {c1 : Byte} {e : CmdEdge} {s : State} (h : s.st ≠ .pay) :
    runCommand c1 e s = .refused .notAtPosition := by
  cases e <;> simp [runCommand, State.selectorIndex, h]

theorem runButton_refused {bt : Button × ButtonAction} {s : State} (h : s.st ≠ .pay) :
    runButton bt s = .refused .notAtPosition := by
  unfold runButton
  split <;> simp [State.inPayload, h]

theorem runX10Flag_refused {flag : Byte} {s : State} (h : s.st ≠ .pay) :
    runX10Flag flag s = .refused .notAtPosition := by
  simp [runX10Flag, State.inPayload, h]

/-- Settles O60: each row by the operation it runs. -/
theorem rowsRunOnlyInTheirPhase : Obligations.RowsRunOnlyInTheirPhase := by
  intro i s h
  cases i with
  | marker => exact if_neg h
  | userReset => exact runFrame_refused (e := .accept 0x55) h
  | unsupported => exact if_neg fun ⟨hst, _⟩ => h hst
  | receivedStd | receivedExt | x10Received | linkComplete | buttonEvent | linkCleanupFailed | linkRecordResponse
  | linkCleanupStatus | databaseRecordFound | getInfo | linkCommandEcho | x10Sent | linkStart | linkCancel | categorySet
  | reset | ackByteSet | firstLinkRecord | nextLinkRecord | configSet | senderLinkRecord | ledOn | ledOff
  | linkRecordUpdate | nakByteSet | ackTwoBytesSet | sleep | configGet => exact runFrame_refused h
  | cmdCancelLinking | cmdBeginLinking | cmdBeginUnlinking | cmdIdRequest | cmdOn | cmdFastOn | cmdOff | cmdFastOff
  | cmdBright | cmdDim | cmdStart | cmdStop | cmdStatusRequest => exact runCommand_refused h
  | btn1Tapped | btn1Held | btn1Released | btn2Tapped | btn2Held | btn2Released | btn3Tapped | btn3Held
  | btn3Released => exact runButton_refused h
  | x10Unit | x10Command => exact runX10Flag_refused h

end Sys2Proof.Machine
end

section
/-! SUPPORT. 30_encoding.md R65 to R79: the message table (O27), and that decode and encode are inverse to each other on the
well-formed instructions (O24, O25). Each check of well-formedness and each phase of the decoder is said once, as an `↔`;
O24 reads these from right to left and O25 from left to right. -/

namespace Sys2Proof.Machine

/-! ## The message table -/

/-- No opcode stands twice in the message table, so each of its rows is found, under every parameter set. -/
theorem lookup_msg_of_mem {op : Byte} {len : Len} {mk : MsgKind} (h : (op, len, mk) ∈ msgTable) (p : Params) :
    lookup p .msg op = .entry len (.msg mk) := by
  simp only [lookup, lookup_of_mem (by decide) h]

theorem lookup_msg_userReset (p : Params) : lookup p .msg 0x55 = .entry 0 (.msg .userReset) :=
  lookup_msg_of_mem (by decide) p

theorem lookup_msg_ne_none_iff {p : Params} {op : Byte} :
    lookup p .msg op ≠ .none ↔ ∃ row ∈ msgTable, op = row.1 := by
  constructor
  · intro h
    cases hl : lookup p .msg op with
    | none => exact absurd hl h
    | unsupported => exact absurd hl (lookup_msg_not_unsupported p op)
    | entry len k =>
      obtain ⟨mk, -, hmem⟩ := lookup_msg_entry hl
      exact ⟨_, lookup_mem hmem, rfl⟩
  · rintro ⟨⟨op, len, mk⟩, hmem, rfl⟩
    simp [lookup_msg_of_mem hmem]

/-- The opcodes of the message table are the message space (R67). -/
theorem msgTable_opcode_iff {op : Byte} : (∃ row ∈ msgTable, op = row.1) ↔ 0x50#8 ≤ op ∧ op ≤ 0x59#8 := by
  constructor
  · rintro ⟨row, hmem, rfl⟩
    have hspace : ∀ row ∈ msgTable, 0x50#8 ≤ row.1 ∧ row.1 ≤ 0x59#8 := by decide
    exact hspace row hmem
  · intro h
    simp only [msgTable, List.exists_mem_cons_iff, List.not_mem_nil, false_and, exists_false, or_false]
    bv_omega

theorem mem_msgTable_of_mem_msgRows : ∀ row ∈ msgRows, row.2 ∈ msgTable := by decide

/-- Settles O27: each row by its place in the message table, the recognised bytes by the table's opcodes. -/
theorem messageTableIsAsStated : Obligations.MessageTableIsAsStated := by
  intro p op
  refine ⟨fun row hrow => ?_, ?_, ?_⟩
  · exact lookup_msg_of_mem (mem_msgTable_of_mem_msgRows row hrow) p
  · exact lookup_msg_userReset p
  · exact lookup_msg_ne_none_iff.trans msgTable_opcode_iff

/-! ## The rows by shape: what their well-formedness and their byte are -/

theorem frameInstr_row {k : Kind} {e : FrameEdge} {i : Instr} (h : frameInstr k e = some i) (hk : k ≠ .msg .userReset)
    (p : Params) (pos : Position) : i.wellFormed p pos = frameWellFormed p k pos e ∧ encode p i = e.byte := by
  cases k with
  | msg mk =>
    cases mk with
    | userReset => exact absurd rfl hk
    | _ => cases h; exact ⟨rfl, rfl⟩
  | rsp rk =>
    cases rk with
    | extension layout => cases h
    | _ => cases h; exact ⟨rfl, rfl⟩

theorem cmdInstr_row {c1 : Byte} {e : CmdEdge} {i : Instr} (h : cmdInstr c1 e = some i) (p : Params) (pos : Position) :
    i.wellFormed p pos = cmdWellFormed c1 pos e ∧ encode p i = e.byte c1 := by
  by_cases hc : c1 ∈ commandBytes
  · simp only [commandBytes, List.mem_cons, List.not_mem_nil, or_false] at hc
    rcases hc with rfl | rfl | rfl | rfl | rfl | rfl | rfl | rfl | rfl | rfl | rfl | rfl | rfl <;>
      (cases h; exact ⟨rfl, rfl⟩)
  · rw [cmdInstr_none hc] at h; cases h

theorem buttonInstr_row (bt : Button × ButtonAction) (p : Params) (pos : Position) :
    (buttonInstr bt).wellFormed p pos = buttonWellFormed p bt pos ∧
      encode p (buttonInstr bt) = (buttonByte p bt).getD 0x00 := by
  obtain ⟨button, action⟩ := bt
  cases button <;> cases action <;> exact ⟨rfl, rfl⟩

/-! ## Where the rows of each shape are well formed -/

theorem frameWellFormed_iff {p : Params} {k : Kind} {pos : Position} {e : FrameEdge} :
    frameWellFormed p k pos e = true ↔
      (∃ m op len, pos = .opcode m ∧ e = .accept op ∧ lookup p m op = .entry len k) ∨
      (∃ n prev b, pos = .payload k n prev ∧ e = .payload b ∧ ownRow p k n prev b = false) := by
  constructor
  · intro h
    unfold frameWellFormed at h
    split at h
    · obtain ⟨len, hl⟩ := lookupKind_eq.mp (eq_of_beq h)
      exact .inl ⟨_, _, len, rfl, rfl, hl⟩
    · simp only [Bool.and_eq_true, beq_iff_eq, Bool.not_eq_true'] at h
      obtain ⟨rfl, hown⟩ := h
      exact .inr ⟨_, _, _, rfl, rfl, hown⟩
    · cases h
  · rintro (⟨m, op, len, rfl, rfl, hl⟩ | ⟨n, prev, b, rfl, rfl, hown⟩)
    · simpa [frameWellFormed] using lookupKind_eq.mpr ⟨len, hl⟩
    · simp [frameWellFormed, hown]

theorem cmdWellFormed_iff {c1 : Byte} {pos : Position} {e : CmdEdge} :
    cmdWellFormed c1 pos e = true ↔
      (∃ k n prev, pos = .payload k n prev ∧ e = .select ∧ commandIndex k = some n) ∨
      (∃ k n c2, pos = .payload k (n + 1) c1 ∧ e = .data c2 ∧ commandIndex k = some n) := by
  constructor
  · intro h
    unfold cmdWellFormed at h
    split at h
    · exact .inl ⟨_, _, _, rfl, rfl, eq_of_beq h⟩
    · rename_i k n prev c2
      simp only [Bool.and_eq_true, beq_iff_eq, bne_iff_ne] at h
      obtain ⟨⟨hn, hk⟩, rfl⟩ := h
      obtain ⟨j, rfl⟩ := Nat.exists_eq_succ_of_ne_zero hn
      exact .inr ⟨k, j, c2, rfl, rfl, hk⟩
    · cases h
  · rintro (⟨k, n, prev, rfl, rfl, hk⟩ | ⟨k, n, c2, rfl, rfl, hk⟩) <;> simp [cmdWellFormed, hk]

theorem buttonWellFormed_iff {p : Params} {bt : Button × ButtonAction} {pos : Position} :
    buttonWellFormed p bt pos = true ↔
      ∃ prev b, pos = .payload (.msg .buttonEvent) 0 prev ∧ buttonByte p bt = some b := by
  cases pos with
  | hunt | opcode m => simp [buttonWellFormed]
  | payload k n prev => simp [buttonWellFormed, Option.isSome_iff_exists, and_assoc]

theorem x10FlagWellFormed_iff {pos : Position} :
    x10FlagWellFormed pos = true ↔ ∃ k prev, pos = .payload k 1 prev ∧ carriesX10 k = true := by
  cases pos with
  | hunt | opcode m => simp [x10FlagWellFormed]
  | payload k n prev => simp [x10FlagWellFormed, and_comm]

/-! ## What the decoder reads in each phase -/

theorem decode_hunt_iff {p : Params} {b : Byte} {i : Instr} :
    decode p .hunt b = some i ↔ b = markerByte ∧ i = .marker := by
  simp [decode, eq_comm]

theorem decode_opcode_iff {p : Params} {m : Mode} {b : Byte} {i : Instr} :
    decode p (.opcode m) b = some i ↔
      (lookup p m b = .unsupported ∧ i = .unsupported) ∨
      (∃ len k, lookup p m b = .entry len k ∧ frameInstr k (.accept b) = some i) := by
  cases hl : lookup p m b <;> simp [decode, hl, eq_comm]

theorem decode_payload_iff {p : Params} {k : Kind} {n : Nat} {prev b : Byte} {i : Instr} :
    decode p (.payload k n prev) b = some i ↔
      ownInstr p k n prev b = some i ∨ (ownRow p k n prev b = false ∧ frameInstr k (.payload b) = some i) := by
  rw [← ownInstr_none_iff]
  cases ho : ownInstr p k n prev b <;> simp [decode, ho]

/-- The payload bytes that are a row of their own (R73), one constructor per reason. -/
inductive OwnCase (p : Params) (k : Kind) (n : Nat) (prev b : Byte) (i : Instr) : Prop
  | select (hk : commandIndex k = some n) (hi : cmdInstr b .select = some i)
  | data (j : Nat) (hk : commandIndex k = some j) (hn : n = j + 1) (hi : cmdInstr prev (.data b) = some i)
  | button (bt : Button × ButtonAction) (hk : k = .msg .buttonEvent) (hn : n = 0) (hb : buttonOf p b = some bt)
      (hi : i = buttonInstr bt)
  | x10Unit (hk : carriesX10 k = true) (hn : n = 1) (hb : b = 0x00) (hi : i = .x10Unit)
  | x10Command (hk : carriesX10 k = true) (hn : n = 1) (hb : b = 0x80) (hi : i = .x10Command)

/-- The reasons exclude each other: the kinds that hold a command pair, a button or an X10 message differ. -/
theorem ownInstr_eq_some_iff {p : Params} {k : Kind} {n : Nat} {prev b : Byte} {i : Instr} :
    ownInstr p k n prev b = some i ↔ OwnCase p k n prev b i := by
  constructor
  · intro h
    unfold ownInstr at h
    split at h
    next hk => exact .select hk h
    split at h
    next hk =>
      obtain ⟨hn, hk⟩ := hk
      exact .data _ hk (Nat.succ_pred_eq_of_ne_zero hn).symm h
    split at h
    next hk =>
      obtain ⟨hk, hn⟩ := hk
      obtain ⟨bt, hb, hi⟩ := Option.map_eq_some_iff.mp h
      exact .button bt hk hn hb hi.symm
    split at h
    next hk =>
      obtain ⟨hk, hn⟩ := hk
      split at h
      next hb => exact .x10Unit hk hn hb (Option.some.inj h).symm
      split at h
      next hb => exact .x10Command hk hn hb (Option.some.inj h).symm
      cases h
    cases h
  · intro h
    cases h with
    | select hk hi => rw [ownInstr, if_pos hk, hi]
    | data j hk hn hi => subst hn; simp [ownInstr, hk, hi]
    | button bt hk hn hb hi => subst hk hn hi; simp [ownInstr, commandIndex, hb]
    | x10Unit hk hn hb hi => subst hn hb hi; rcases carriesX10_iff.mp hk with rfl | rfl <;> rfl
    | x10Command hk hn hb hi => subst hn hb hi; rcases carriesX10_iff.mp hk with rfl | rfl <;> rfl

/-! ## O24: encode, then decode -/

theorem decode_frame {p : Params} {k : Kind} {pos : Position} {e : FrameEdge} {i : Instr}
    (hwf : frameWellFormed p k pos e = true) (hi : frameInstr k e = some i) : decode p pos e.byte = some i := by
  obtain ⟨m, op, len, rfl, rfl, hl⟩ | ⟨n, prev, b, rfl, rfl, hown⟩ := frameWellFormed_iff.mp hwf
  · exact decode_opcode_iff.mpr (.inr ⟨len, k, hl, hi⟩)
  · exact decode_payload_iff.mpr (.inr ⟨hown, hi⟩)

theorem decode_of_ownCase {p : Params} {k : Kind} {n : Nat} {prev b : Byte} {i : Instr} (h : OwnCase p k n prev b i) :
    decode p (.payload k n prev) b = some i :=
  decode_payload_iff.mpr (.inl (ownInstr_eq_some_iff.mpr h))

theorem decode_command {p : Params} {c1 : Byte} {pos : Position} {e : CmdEdge} {i : Instr}
    (hwf : cmdWellFormed c1 pos e = true) (hi : cmdInstr c1 e = some i) : decode p pos (e.byte c1) = some i := by
  obtain ⟨k, n, prev, rfl, rfl, hk⟩ | ⟨k, n, c2, rfl, rfl, hk⟩ := cmdWellFormed_iff.mp hwf
  · exact decode_of_ownCase (.select hk hi)
  · exact decode_of_ownCase (.data n hk rfl hi)

theorem decode_button {p : Params} (hp : p.ok = true) {bt : Button × ButtonAction} {pos : Position}
    (hwf : buttonWellFormed p bt pos = true) : decode p pos ((buttonByte p bt).getD 0x00) = some (buttonInstr bt) := by
  obtain ⟨prev, b, rfl, hb⟩ := buttonWellFormed_iff.mp hwf
  rw [hb]
  exact decode_of_ownCase (.button bt rfl rfl ((buttonByte_iff hp bt b).mp hb) rfl)

/-- Settles O24: each row by its shape; the three rows without operands by the decoder's equations. -/
theorem decodeOfEncodeIsTheInstruction : Obligations.DecodeOfEncodeIsTheInstruction := by
  intro p pos i hp hwf
  cases i with
  | marker =>
    obtain rfl : pos = .hunt := eq_of_beq hwf
    exact decode_hunt_iff.mpr ⟨rfl, rfl⟩
  | userReset =>
    obtain rfl : pos = .opcode .msg := eq_of_beq hwf
    exact decode_opcode_iff.mpr (.inr ⟨0, .msg .userReset, lookup_msg_userReset p, rfl⟩)
  | unsupported =>
    obtain rfl : pos = .opcode .rsp := eq_of_beq hwf
    exact decode_opcode_iff.mpr (.inl ⟨(lookup_unsupported_iff hp .rsp 0x62).mpr ⟨rfl, rfl⟩, rfl⟩)
  | receivedStd | receivedExt | x10Received | linkComplete | buttonEvent | linkCleanupFailed | linkRecordResponse
  | linkCleanupStatus | databaseRecordFound | getInfo | linkCommandEcho | x10Sent | linkStart | linkCancel | categorySet
  | reset | ackByteSet | firstLinkRecord | nextLinkRecord | configSet | senderLinkRecord | ledOn | ledOff
  | linkRecordUpdate | nakByteSet | ackTwoBytesSet | sleep | configGet => exact decode_frame hwf rfl
  | cmdCancelLinking | cmdBeginLinking | cmdBeginUnlinking | cmdIdRequest | cmdOn | cmdFastOn | cmdOff | cmdFastOff
  | cmdBright | cmdDim | cmdStart | cmdStop | cmdStatusRequest => exact decode_command hwf rfl
  | btn1Tapped | btn1Held | btn1Released | btn2Tapped | btn2Held | btn2Released | btn3Tapped | btn3Held
  | btn3Released => exact decode_button hp hwf
  | x10Unit =>
    obtain ⟨k, prev, rfl, hk⟩ := x10FlagWellFormed_iff.mp hwf
    exact decode_of_ownCase (.x10Unit hk rfl rfl rfl)
  | x10Command =>
    obtain ⟨k, prev, rfl, hk⟩ := x10FlagWellFormed_iff.mp hwf
    exact decode_of_ownCase (.x10Command hk rfl rfl rfl)

/-! ## O25: decode, then encode -/

/-- USER_RESET has a row at its opcode edge only, and only `0x55` of the message table is that edge (R68). -/
theorem userReset_accept_sound {p : Params} {m : Mode} {b : Byte} {len : Len} {i : Instr}
    (hl : lookup p m b = .entry len (.msg .userReset)) (hi : frameInstr (.msg .userReset) (.accept b) = some i) :
    i.wellFormed p (.opcode m) = true ∧ encode p i = b := by
  obtain ⟨rfl, rfl, -⟩ := lookup_userReset hl
  cases hi
  exact ⟨rfl, rfl⟩

theorem frame_sound {p : Params} {k : Kind} {pos : Position} {e : FrameEdge} {i : Instr}
    (hwf : frameWellFormed p k pos e = true) (hi : frameInstr k e = some i) :
    i.wellFormed p pos = true ∧ encode p i = e.byte := by
  by_cases hk : k = .msg .userReset
  · subst hk
    obtain ⟨m, op, len, rfl, rfl, hl⟩ | ⟨n, prev, b, rfl, rfl, -⟩ := frameWellFormed_iff.mp hwf
    · exact userReset_accept_sound hl hi
    · cases hi
  · obtain ⟨hrow, hbyte⟩ := frameInstr_row hi hk p pos
    exact ⟨hrow.trans hwf, hbyte⟩

theorem command_sound {c1 : Byte} {pos : Position} {e : CmdEdge} {i : Instr} (p : Params)
    (hwf : cmdWellFormed c1 pos e = true) (hi : cmdInstr c1 e = some i) :
    i.wellFormed p pos = true ∧ encode p i = e.byte c1 := by
  obtain ⟨hrow, hbyte⟩ := cmdInstr_row hi p pos
  exact ⟨hrow.trans hwf, hbyte⟩

theorem ownCase_sound {p : Params} (hp : p.ok = true) {k : Kind} {n : Nat} {prev b : Byte} {i : Instr}
    (h : OwnCase p k n prev b i) : i.wellFormed p (.payload k n prev) = true ∧ encode p i = b := by
  cases h with
  | select hk hi => exact command_sound p (cmdWellFormed_iff.mpr (.inl ⟨k, n, prev, rfl, rfl, hk⟩)) hi
  | data j hk hn hi =>
    subst hn
    exact command_sound p (cmdWellFormed_iff.mpr (.inr ⟨k, j, b, rfl, rfl, hk⟩)) hi
  | button bt hk hn hb hi =>
    subst hk hn hi
    have hbyte : buttonByte p bt = some b := (buttonByte_iff hp bt b).mpr hb
    obtain ⟨hrow, henc⟩ := buttonInstr_row bt p (.payload (.msg .buttonEvent) 0 prev)
    exact ⟨hrow.trans (buttonWellFormed_iff.mpr ⟨prev, b, rfl, hbyte⟩), by rw [henc, hbyte]; rfl⟩
  | x10Unit hk hn hb hi =>
    subst hn hb hi
    exact ⟨x10FlagWellFormed_iff.mpr ⟨k, prev, rfl, hk⟩, rfl⟩
  | x10Command hk hn hb hi =>
    subst hn hb hi
    exact ⟨x10FlagWellFormed_iff.mpr ⟨k, prev, rfl, hk⟩, rfl⟩

/-- Settles O25: the phases of the decoder, and in a payload the row of its own before the frame's. -/
theorem decodedInstructionIsWellFormed : Obligations.DecodedInstructionIsWellFormed := by
  intro p pos b i hp h
  cases pos with
  | hunt =>
    obtain ⟨rfl, rfl⟩ := decode_hunt_iff.mp h
    exact ⟨rfl, rfl⟩
  | opcode m =>
    obtain ⟨hl, rfl⟩ | ⟨len, k, hl, hi⟩ := decode_opcode_iff.mp h
    · obtain ⟨rfl, rfl⟩ := (lookup_unsupported_iff hp m b).mp hl
      exact ⟨rfl, rfl⟩
    · exact frame_sound (frameWellFormed_iff.mpr (.inl ⟨m, b, len, rfl, rfl, hl⟩)) hi
  | payload k n prev =>
    obtain hown | ⟨hown, hi⟩ := decode_payload_iff.mp h
    · exact ownCase_sound hp (ownInstr_eq_some_iff.mp hown)
    · exact frame_sound (frameWellFormed_iff.mpr (.inr ⟨n, prev, b, rfl, rfl, hown⟩)) hi

end Sys2Proof.Machine
end

section
/-! SUPPORT. 40_sync.md R90: the step is the reference step, arm by arm (O11), and the edges that run no row (O1, O3 to O6, O10,
O20). The silent edge is said once per phase; each statement about such an edge is one of these equations. -/

namespace Sys2Proof.Machine

/-! ## The silent edge, phase by phase -/

/-- A source failure in a read phase (R102). -/
theorem silentEdge_of_failure {s : State} (hrst : s.edge.rst = false) (hready : s.inReady = true)
    (herr : s.edge.inErr = true) : silentEdge s = s.tick.goto .eos := by
  simp [silentEdge, hrst, hready, herr]

/-- Neither a failure nor a record that leaves (R103, R104). -/
theorem silentEdge_of_idle {s : State} (hrst : s.edge.rst = false) (herr : s.inReady = false ∨ s.edge.inErr = false)
    (hst : s.st ≠ .out) : silentEdge s = s.tick := by
  have hover : s.handsOver = false := by simp [State.handsOver, State.outValid, hst]
  rcases herr with h | h <;> simp [silentEdge, hrst, h, hover]

/-- A ready sink takes the record (R101). -/
theorem silentEdge_of_ready {s : State} (hst : s.st = .out) (hrst : s.edge.rst = false)
    (hsink : s.edge.outReady = true) : silentEdge s = handOver s := by
  simp [silentEdge, hrst, State.inReady, hst, handsOver_iff.mpr ⟨hrst, hst, hsink⟩]

theorem transfers_of_failure {s : State} (herr : s.edge.inErr = true) : s.transfers = false := by
  simp [State.transfers, herr]

theorem transfers_of_not_inValid {s : State} (hvalid : s.edge.inValid = false) : s.transfers = false := by
  simp [State.transfers, hvalid]

theorem inReady_of_out {s : State} (hst : s.st = .out) : s.inReady = false := by simp [State.inReady, hst]

theorem inReady_of_eos {s : State} (hst : s.st = .eos) : s.inReady = false := by simp [State.inReady, hst]

theorem record_of_not_out {s : State} (hst : s.st ≠ .out) : s.record = none := by
  simp [State.record, State.outValid, hst]

/-! ## O11: the reference step by the kind of edge -/

theorem referenceEdge_of_silent {s : State} (htr : s.transfers = false) : referenceEdge s = silentEdge s := by
  unfold referenceEdge
  cases hrst : s.edge.rst with
  | true => simp [silentEdge, hrst]
  | false =>
    cases hst : s.st with
    | hunt | opc | pay =>
      have hready : s.inReady = true := by simp [inReady_iff, hst]
      cases herr : s.edge.inErr with
      | true => simp [silentEdge_of_failure hrst hready herr, hrst, herr, State.goto, State.tick]
      | false =>
        have hvalid : s.edge.inValid = false := by simpa [State.transfers, hrst, hready, herr] using htr
        simp [silentEdge_of_idle hrst (.inr herr) (by simp [hst]), hrst, herr, hvalid, hst, State.tick]
    | out =>
      cases hsink : s.edge.outReady with
      | true => simp [silentEdge_of_ready hst hrst hsink, hrst, hsink, handOver]
      | false => simp [silentEdge_of_held hst hrst hsink, hrst, hsink, hst, State.tick]
    | eos => simp [silentEdge_of_idle hrst (.inl (inReady_of_eos hst)) (by simp [hst]), hrst, hst, State.tick]

theorem referenceEdge_of_scan {s : State} (hst : s.st = .hunt) (htr : s.transfers = true) :
    referenceEdge s = scanByte s := by
  obtain ⟨hrst, -, herr, hvalid⟩ := transfers_iff.mp htr
  have harm : referenceEdge s = { s.tick with st := if s.edge.inData = 0x02 then .opc else .hunt } := by
    simp [referenceEdge, hrst, herr, hvalid, hst, State.tick]
  rw [harm, scanByte]
  split
  · rfl
  · rw [← hst]
    rfl

theorem referenceEdge_of_opcode {s : State} (hp : s.params.ok = true) (hst : s.st = .opc) (htr : s.transfers = true) :
    referenceEdge s = acceptOpcode s.edge.inData s := by
  obtain ⟨hrst, -, herr, hvalid⟩ := transfers_iff.mp htr
  cases hl : lookup s.params s.edge.mode s.edge.inData with
  | none =>
    rw [acceptOpcode_none hl]
    simp [referenceEdge, hrst, herr, hvalid, hst, hl]
  | unsupported =>
    obtain ⟨hmode, -⟩ := (lookup_unsupported_iff hp _ _).mp hl
    rw [acceptOpcode_unsupported hl, ← hmode]
    simp [referenceEdge, hrst, herr, hvalid, hst, hl]
  | entry len k =>
    by_cases h0 : len = 0
    · subst h0
      rw [acceptOpcode_zero hl]
      simp [referenceEdge, hrst, herr, hvalid, hst, hl]
    · rw [acceptOpcode_entry hl h0]
      simp only [referenceEdge, hrst, herr, hvalid, hst, hl, if_neg h0]
      simp

theorem referenceEdge_of_payload {s : State} (hst : s.st = .pay) (htr : s.transfers = true) :
    referenceEdge s = afterPayload s.edge.inData s := by
  obtain ⟨hrst, -, herr, hvalid⟩ := transfers_iff.mp htr
  simp [referenceEdge, hrst, herr, hvalid, hst]

theorem referenceEdge_of_stepCase {s t : State} (hp : s.params.ok = true) (hcase : StepCase s t) :
    referenceEdge s = t := by
  cases hcase with
  | silent htr => exact referenceEdge_of_silent htr
  | scan hst htr => exact referenceEdge_of_scan hst htr
  | opcode hst htr => exact referenceEdge_of_opcode hp hst htr
  | payload hst htr => exact referenceEdge_of_payload hst htr

/-- Settles O11: each kind of edge is its arm of R90, and the edge that hands a record over transfers no byte. -/
theorem stepIsTheReferenceStep : Obligations.StepIsTheReferenceStep := by
  intro s hp hbuf
  obtain ⟨t, hcase⟩ := exists_stepCase fun hst _ => hbuf hst
  refine ⟨?_, fun ⟨htr, hover⟩ => ?_⟩
  · rw [referenceEdge_of_stepCase hp hcase]
    exact step_of_case hp hcase
  · simp [handsOver_of_transfers htr] at hover

/-! ## O1, O3 to O6: the edges that run no row -/

/-- Settles O1: in HUNT only the marker leaves the phase. -/
theorem huntDropsNoise : Obligations.HuntDropsNoise := by
  intro s hp hst htr hb
  rw [step_of_scan hp hst htr, scanByte, if_neg hb]
  rfl

/-- Settles O3: OUT takes no byte, so its edge is silent: the hand-over, or nothing. -/
theorem outHandsOverOrHolds : Obligations.OutHandsOverOrHolds := by
  intro s hp hst hrst
  rw [step_of_silent hp (transfers_of_not_inReady (inReady_of_out hst))]
  refine ⟨fun hsink => ?_, fun hsink => ?_⟩
  · rw [silentEdge_of_ready hst hrst hsink, handOver_eq]
  · rw [silentEdge_of_held hst hrst hsink]
    rfl

/-- Settles O4: the failure is sampled before the byte, and EOS decides the ports. -/
theorem sourceFailureEndsStream : Obligations.SourceFailureEndsStream := by
  intro s hp hst hrst herr
  rw [step_of_silent hp (transfers_of_failure herr), silentEdge_of_failure hrst (inReady_iff.mpr hst) herr]
  refine ⟨rfl, fun t heq => ?_⟩
  injection heq with heq
  subst heq
  exact ⟨rfl, inReady_of_eos rfl, rfl, record_of_not_out (by simp)⟩

/-- Settles O5: EOS takes no byte and presents nothing, so without reset its edge only passes. -/
theorem endOfStreamIsTerminal : Obligations.EndOfStreamIsTerminal := by
  intro s hp hst
  have hready := inReady_of_eos hst
  rw [step_of_silent hp (transfers_of_not_inReady hready)]
  refine ⟨fun hrst => ?_, fun hrst => ⟨_, rfl, ?_⟩⟩
  · rw [silentEdge_of_idle hrst (.inl hready) (by simp [hst])]
    rfl
  · rw [silentEdge, if_pos hrst, resetEdge_st]

/-- Settles O6: nothing is sampled on an idle edge. -/
theorem idleEdgeChangesNothing : Obligations.IdleEdgeChangesNothing := by
  intro s hp hst hrst herr hvalid
  have hout : s.st ≠ .out := by rcases hst with h | h | h <;> simp [h]
  rw [step_of_silent hp (transfers_of_not_inValid hvalid), silentEdge_of_idle hrst (.inr herr) hout]
  rfl

/-! ## O10, O20 -/

/-- Settles O10: the row fetched at the state's position is the row run. -/
theorem stepRunsTheDecodedInstruction : Obligations.StepRunsTheDecodedInstruction := by
  intro s pos i hp htr hpos hdec
  have hfetch : s.fetch = some i := by simp only [State.fetch, hpos, hdec]
  rw [step_of_transfers hp htr]
  simp only [takeByte, hfetch]

/-- Settles O20: every class-1 event is the discard, and the two others are single updates by definition. -/
theorem eventsEnterInOneTransition : Obligations.EventsEnterInOneTransition :=
  ⟨fun _ s hclass => raise_class1 hclass s, fun _ _ => rfl, fun _ => rfl⟩

end Sys2Proof.Machine
end

section
/-! SUPPORT. The edges that run a row (40_sync.md R92 to R99): the marker, the opcode edges (O2, O29 to O31, O33, O34) and the
payload edges (O35). Each frame row of the two lists runs the frame operation of its kind, and that operation decides. -/

namespace Sys2Proof.Machine

/-! ## The rows of the lists by the operation they run -/

/-- The message rows with a payload, each with its kind. -/
theorem exec_msgRow {row : (FrameEdge → Instr) × Byte × Len × MsgKind} (h : row ∈ msgRows) (e : FrameEdge) (s : State) :
    exec (row.1 e) s = runFrame (.msg row.2.2.2) e s := by
  simp only [msgRows, List.mem_cons, List.not_mem_nil, or_false] at h
  rcases h with rfl | rfl | rfl | rfl | rfl | rfl | rfl | rfl | rfl <;> rfl

/-- The response rows, each with its kind. -/
theorem exec_rspRow {row : (FrameEdge → Instr) × Byte × Len × RspKind} (h : row ∈ rspRows) (e : FrameEdge) (s : State) :
    exec (row.1 e) s = runFrame (.rsp row.2.2.2) e s := by
  simp only [rspRows, List.mem_cons, List.not_mem_nil, or_false] at h
  rcases h with rfl | rfl | rfl | rfl | rfl | rfl | rfl | rfl | rfl | rfl | rfl | rfl | rfl | rfl | rfl | rfl | rfl |
    rfl | rfl <;> rfl

theorem msgRows_length_ne_zero : ∀ row ∈ msgRows, row.2.2.1 ≠ 0 := by decide

/-- The opcode edge of an entry runs, whatever its kind. -/
theorem runFrame_accept_entry {s : State} {m : Mode} {op : Byte} {len : Len} {k : Kind} (hst : s.st = .opc)
    (hmode : s.edge.mode = m) (hl : lookup s.params m op = .entry len k) :
    runFrame k (.accept op) s = .next (acceptOpcode op s) :=
  runFrame_accept hst (lookupKind_eq.mpr ⟨len, hmode ▸ hl⟩)

/-- The opcode edge of a frame with a payload (R93, R97). -/
theorem runFrame_accept_payload {s : State} {m : Mode} {op : Byte} {len : Len} {k : Kind} (hst : s.st = .opc)
    (hmode : s.edge.mode = m) (hl : lookup s.params m op = .entry len k) (hlen : len ≠ 0) :
    runFrame k (.accept op) s = .next { s with
      st := .pay, opcR := op, modeL := m, cnt := 0, lenR := len, inputs := s.inputs.tail } := by
  subst hmode
  rw [runFrame_accept_entry hst rfl hl, acceptOpcode_entry hl hlen]

/-- The opcode edge of a frame without one (R96). -/
theorem runFrame_accept_zero {s : State} {m : Mode} {op : Byte} {k : Kind} (hst : s.st = .opc)
    (hmode : s.edge.mode = m) (hl : lookup s.params m op = .entry 0 k) :
    runFrame k (.accept op) s = .next { s with
      st := .out, opcR := op, modeL := m, cnt := 0, lenR := 0, inputs := s.inputs.tail } := by
  subst hmode
  rw [runFrame_accept_entry hst rfl hl, acceptOpcode_zero hl]

/-- A payload edge of a frame row (R98, R99). -/
theorem runFrame_payload_stores {s : State} {k : Kind} (hst : s.st = .pay) (hk : s.kind = some k)
    (hcnt : s.cnt.toNat < 20) (b : Byte) : runFrame k (.payload b) s = .next (afterPayload b s) := by
  rw [runFrame_payload hst hk, takePayload_eq hcnt]

/-! ## The record that OUT shows -/

/-- The validity check is what the record needs: a frame that passes it has one (R100, R130). -/
theorem recordOf_of_valid {p : Params} {m : Mode} {op : Byte} {len : Len} {k : Kind} {P : Payload}
    (hl : lookup p m op = .entry len k) (hv : valid p m op P = true) : ∃ rec, recordOf p m op P = some rec := by
  simp only [recordOf, valid, hl] at hv ⊢
  rw [← Option.isSome_iff_exists]
  cases k with
  | msg mk =>
    cases mk with
    | x10Received => simpa [recKind, recX10Received] using hv
    | linkComplete => simpa [recKind, recLinkComplete, linkResult] using hv
    | buttonEvent => simpa [recKind, recButtonEvent] using hv
    | _ => rfl
  | rsp rk =>
    cases rk with
    | x10Sent => simpa [recKind, recX10Sent] using hv
    | _ => rfl

theorem record_of_out {s : State} (hst : s.st = .out) :
    s.record = if s.outUnsup then some (.unsupported (opcode := s.opcR))
      else recordOf s.params s.modeL s.opcR s.payload := by
  rw [State.record, if_pos (outValid_iff.mpr hst)]

/-- A presented record of an entry is the entry's (R130). -/
theorem record_of_entry {s : State} {len : Len} (hp : s.params.ok = true) (hst : s.st = .out)
    (hlen : entryLength s.params s.modeL s.opcR = some len) :
    s.record = recordOf s.params s.modeL s.opcR s.payload := by
  simp [record_of_out hst, outUnsup_of_entry hp hlen]

/-! ## O2, O29 to O31, O33 to O35 -/

/-- Settles O2: the opcode edge at an opcode without an entry. -/
theorem unrecognisedOpcodeIsDiscarded : Obligations.UnrecognisedOpcodeIsDiscarded := by
  intro s hp hst htr hl
  rw [step_of_opcode hp hst htr, acceptOpcode_none hl]

/-- Settles O29: HUNT is the row's position. -/
theorem markerStartsAFrame : Obligations.MarkerStartsAFrame := fun _ hst => if_pos hst

/-- Settles O30: each row stands in the message table with a length other than 0. -/
theorem messageOpcodeStartsItsPayload : Obligations.MessageOpcodeStartsItsPayload := by
  intro row hrow s hst hmode
  have hl := lookup_msg_of_mem (mem_msgTable_of_mem_msgRows row hrow) s.params
  rw [exec_msgRow hrow, runFrame_accept_payload hst hmode hl (msgRows_length_ne_zero row hrow)]

/-- Settles O31: each row at the opcode and length of its entry. -/
theorem responseOpcodeStartsItsPayload : Obligations.ResponseOpcodeStartsItsPayload := by
  intro row hrow s op len hst hmode hl hlen
  rw [exec_rspRow hrow, runFrame_accept_payload hst hmode hl hlen]

/-- Settles O33: at length 0 the check passes, so a record is shown. -/
theorem lengthZeroEntryIsPresentedAtOnce : Obligations.LengthZeroEntryIsPresentedAtOnce := by
  intro row hrow s op hst hmode hl
  refine ⟨_, ?_, rfl, rfl, ?_⟩
  · rw [exec_rspRow hrow, runFrame_accept_zero hst hmode hl]
  · rw [record_of_out rfl]
    split
    · exact ⟨_, rfl⟩
    · exact recordOf_of_valid hl (valid_zero hl _)

/-- Settles O34: by R7 (b) the table of mode RSP marks `0x62`, and `out_unsup` then selects the record. -/
theorem unsupportedOpcodeIsReported : Obligations.UnsupportedOpcodeIsReported := by
  intro s hp hst hmode
  have hl : lookup s.params s.edge.mode 0x62 = .unsupported := (lookup_unsupported_iff hp _ _).mpr ⟨hmode, rfl⟩
  have hexec : exec .unsupported s = .next (acceptOpcode 0x62 s) := if_pos ⟨hst, hl⟩
  rw [acceptOpcode_unsupported hl] at hexec
  exact ⟨_, hexec, rfl, rfl, rfl, rfl⟩

/-- Settles O35: a row of either list stores the byte. -/
theorem payloadByteIsStored : Obligations.PayloadByteIsStored := by
  refine ⟨fun row hrow s b hst hk hcnt => ?_, fun row hrow s b hst hk hcnt => ?_⟩
  · rw [exec_msgRow hrow, runFrame_payload_stores hst hk hcnt]
  · rw [exec_rspRow hrow, runFrame_payload_stores hst hk hcnt]

end Sys2Proof.Machine
end

section
/-! SUPPORT. 40_sync.md R106: every edge does what the transaction level does with the byte it transfers, if any, and with
nothing otherwise; a run is edge after edge (O22). -/

namespace Sys2Proof.Machine

/-! ## Runs -/

theorem run_zero (s : State) : Host.Core.run Sys2Proof.core 0 s = .next s := rfl

theorem run_succ_of_step {s u : State} (h : step s = .next u) (n : Nat) :
    Host.Core.run Sys2Proof.core (n + 1) s = Host.Core.run Sys2Proof.core n u := by
  have hcore : Sys2Proof.core.step s = .next u := h
  simp only [Host.Core.run, hcore]

/-- A run that goes on does so edge by edge. -/
theorem run_succ_next {n : Nat} {s t : State} (h : Host.Core.run Sys2Proof.core (n + 1) s = .next t) :
    ∃ u, step s = .next u ∧ Host.Core.run Sys2Proof.core n u = .next t := by
  cases hstep : step s with
  | next u => exact ⟨u, rfl, run_succ_of_step hstep n ▸ h⟩
  | fault r =>
    have hcore : Sys2Proof.core.step s = .fault r := hstep
    simp [Host.Core.run, hcore] at h
  | refused r =>
    have hcore : Sys2Proof.core.step s = .refused r := hstep
    simp [Host.Core.run, hcore] at h

theorem stepCase_inputs {s t : State} (hp : s.params.ok = true) (hcase : StepCase s t) : t.inputs = s.inputs.tail := by
  cases hcase with
  | silent => unfold silentEdge; split_ifs <;> rfl
  | scan => obtain ⟨p, -, heq⟩ := scanByte_eq s; simp [heq]
  | opcode => obtain ⟨p, len, heq⟩ := acceptOpcode_frame hp s.edge.inData; simp [heq]
  | payload => rfl

theorem edge_rst_of_take {s : State} {n : Nat} (h : ∀ e ∈ s.inputs.take (n + 1), e.rst = false) :
    s.edge.rst = false ∧ ∀ e ∈ s.inputs.tail.take n, e.rst = false := by
  unfold State.edge
  cases hin : s.inputs with
  | nil => simp [quietEdge]
  | cons e es => simpa [hin] using h

/-! ## The records -/

theorem emitted_of_not_out {s : State} (hst : s.st ≠ .out) : s.emitted = s.sink := by
  simp [State.emitted, record_of_not_out hst]

/-- The last payload byte decides the frame (R99). -/
theorem afterPayload_st_of_last {b : Byte} {s : State} (hlast : s.cnt + 1 = s.lenR) :
    (afterPayload b s).st =
      if valid s.params s.modeL s.opcR (payloadOf s.opcR (s.buf.setIfInBounds s.cnt.toNat b) s.lenR) = true then .out
      else .hunt :=
  if_pos hlast

/-! ## One edge -/

/-- The bytes of the coming edge: the transferred one, or none. -/
def edgeBytes (s : State) : List (Byte × Mode) := if s.transfers then [(s.edge.inData, s.edge.mode)] else []

theorem transferred_succ {s u : State} (h : step s = .next u) (n : Nat) :
    transferred (n + 1) s = edgeBytes s ++ transferred n u := by
  simp only [transferred, edgeBytes, h]

theorem feedAll_append (p : Params) (S : Scan) (l₁ l₂ : List (Byte × Mode)) :
    feedAll p S (l₁ ++ l₂) =
      ((feedAll p (feedAll p S l₁).1 l₂).1, (feedAll p S l₁).2 ++ (feedAll p (feedAll p S l₁).1 l₂).2) := by
  induction l₁ generalizing S with
  | nil => rfl
  | cons x l₁ ih => simp [feedAll, ih]

/-- Agreement over a run: once the source has failed, it is with the failed scan (R106, `fail`). -/
def Tracks (s : State) (S : Scan) : Prop := Agrees s (if s.st = .eos then S.fail else S)

theorem tracks_iff_agrees {s : State} {S : Scan} (hst : s.st ≠ .eos) : Tracks s S ↔ Agrees s S := by
  rw [Tracks, if_neg hst]

theorem tracks_of_agrees {s : State} {S : Scan} (h : Agrees s S) : Tracks s S := by
  by_cases hst : s.st = .eos
  · obtain ⟨-, hbuf, hregs⟩ := h
    rw [Tracks, if_pos hst]
    exact ⟨by simp [hst, Scan.fail], hbuf, hregs⟩
  · rwa [tracks_iff_agrees hst]

/-- Outside PAY only the phase and the buffer are compared. -/
theorem agrees_of_not_pay {s : State} {S : Scan} (hphase : S.phase = if s.st = .out then .hunt else s.st)
    (hbuf : S.buf = s.buf) (hpay : s.st ≠ .pay) : Agrees s S :=
  ⟨hphase, hbuf, fun h => absurd h hpay⟩

theorem tracks_buf {s : State} {S : Scan} (h : Tracks s S) : S.buf = s.buf := by
  obtain ⟨-, hbuf, -⟩ := h
  split at hbuf <;> exact hbuf

/-- An edge without a byte leaves the scan where it is, and no record is gained or lost. -/
theorem silentEdge_tracks {s : State} {S : Scan} (hrst : s.edge.rst = false) (h : Tracks s S) :
    Tracks (silentEdge s) S ∧ (silentEdge s).emitted = s.emitted := by
  unfold silentEdge
  rw [hrst, if_neg Bool.false_ne_true]
  split_ifs with hfail hover
  · have hout : s.st ≠ .out := by
      intro hst
      simp [inReady_of_out hst] at hfail
    have hbuf := tracks_buf h
    refine ⟨?_, ?_⟩
    · rw [Tracks, if_pos (goto_st _ _)]
      exact agrees_of_not_pay rfl hbuf (by simp)
    · rw [emitted_of_not_out hout, emitted_of_not_out (by simp)]
      rfl
  · obtain ⟨-, hst, -⟩ := handsOver_iff.mp hover
    obtain ⟨hphase, hbuf, -⟩ := (tracks_iff_agrees (by simp [hst])).mp h
    refine ⟨(tracks_iff_agrees (by simp)).mpr (agrees_of_not_pay ?_ hbuf (by simp)), ?_⟩
    · simpa [hst] using hphase
    · rw [emitted_of_not_out (by simp), handOver_sink, State.emitted]
  · exact ⟨h, rfl⟩

theorem feed_of_hunt {S : Scan} (hphase : S.phase = .hunt) (p : Params) (b : Byte) (m : Mode) :
    feed p S b m = (if b = 0x02 then { S with phase := .opc } else S, none) := by
  simp only [feed, hphase]
  rfl

/-- The marker or noise (R91, R92). -/
theorem feed_scan {s : State} {S : Scan} (hst : s.st = .hunt) (h : Agrees s S) (m : Mode) :
    Agrees (scanByte s) (feed s.params S s.edge.inData m).1 ∧
      (scanByte s).record = (feed s.params S s.edge.inData m).2 := by
  obtain ⟨hphase, hbuf, -⟩ := h
  have hhunt : S.phase = .hunt := by simpa [hst] using hphase
  rw [feed_of_hunt hhunt, scanByte]
  by_cases hb : s.edge.inData = 0x02
  · simp only [if_pos hb]
    exact ⟨agrees_of_not_pay rfl hbuf (by simp), record_of_not_out (by simp)⟩
  · simp only [if_neg hb]
    exact ⟨agrees_of_not_pay hphase hbuf (by simp [hst]), record_of_not_out (by simp [hst])⟩

/-- An opcode byte (R93 to R97). -/
theorem feed_opcode {s : State} {S : Scan} (hp : s.params.ok = true) (hst : s.st = .opc) (h : Agrees s S) (op : Byte) :
    Agrees (acceptOpcode op s) (feed s.params S op s.edge.mode).1 ∧
      (acceptOpcode op s).record = (feed s.params S op s.edge.mode).2 := by
  obtain ⟨hphase, hbuf, -⟩ := h
  have hopc : S.phase = .opc := by simpa [hst] using hphase
  simp only [feed, hopc]
  cases hl : lookup s.params s.edge.mode op with
  | none =>
    rw [acceptOpcode_none hl]
    exact ⟨agrees_of_not_pay rfl hbuf (by simp), record_of_not_out (by simp)⟩
  | unsupported =>
    obtain ⟨-, rfl⟩ := (lookup_unsupported_iff hp _ _).mp hl
    rw [acceptOpcode_unsupported hl]
    exact ⟨agrees_of_not_pay rfl hbuf (by simp), rfl⟩
  | entry len k =>
    by_cases h0 : len = 0
    · subst h0
      rw [acceptOpcode_zero hl]
      refine ⟨agrees_of_not_pay rfl hbuf (by simp), ?_⟩
      simp only [if_true, hbuf]
      exact record_of_entry hp rfl (entryLength_eq_some.mpr ⟨k, hl⟩)
    · rw [acceptOpcode_entry hl h0]
      simp only [if_neg h0]
      exact ⟨⟨rfl, hbuf, fun _ => ⟨rfl, rfl, rfl, rfl⟩⟩, record_of_not_out (by simp)⟩

/-- A payload byte (R98, R99): the scan compares lengths where the edge compares registers. -/
theorem feed_payload {s : State} {S : Scan} (hp : s.params.ok = true) (hinv : Inv s) (hst : s.st = .pay)
    (h : Agrees s S) (b : Byte) (m : Mode) :
    Agrees (afterPayload b s) (feed s.params S b m).1 ∧ (afterPayload b s).record = (feed s.params S b m).2 := by
  obtain ⟨hphase, hbuf, hregs⟩ := h
  obtain ⟨hmode, hopc, hlen, hcnt⟩ := hregs hst
  have hpay : S.phase = .pay := by simpa [hst] using hphase
  obtain ⟨⟨-, hle, hlt⟩, hentry⟩ := (inv_pay_iff hst).mp hinv
  have hsucc := cnt_succ_toNat (Nat.lt_of_lt_of_le hlt hle)
  simp only [feed, hpay, hbuf, hmode, hopc, hlen, hcnt]
  by_cases hlast : s.cnt + 1 = s.lenR
  · have hend : ¬ s.cnt.toNat + 1 < s.lenR.toNat := by rw [← hsucc, hlast]; exact Nat.lt_irrefl _
    have hdecided := afterPayload_st_of_last (b := b) hlast
    rw [if_neg hend]
    split
    next hv =>
      have hout := hdecided.trans (if_pos hv)
      exact ⟨agrees_of_not_pay (by simp [hout]) rfl (by simp [hout]), record_of_entry hp hout hentry⟩
    next hv =>
      have hhunt := hdecided.trans (if_neg hv)
      exact ⟨agrees_of_not_pay (by simp [hhunt]) rfl (by simp [hhunt]), record_of_not_out (by simp [hhunt])⟩
  · have hmore : s.cnt.toNat + 1 < s.lenR.toNat := by
      have hne : s.cnt.toNat + 1 ≠ s.lenR.toNat := fun h => hlast (BitVec.eq_of_toNat_eq (hsucc.trans h))
      omega
    have hgoes : (afterPayload b s).st = .pay := (if_neg hlast).trans hst
    rw [if_pos hmore]
    exact ⟨⟨by simp [hgoes], rfl, fun _ => ⟨rfl, rfl, rfl, rfl⟩⟩, record_of_not_out (by simp [hgoes])⟩

/-- An edge that takes a byte is one `feed`. -/
theorem feed_stepCase {s t : State} {S : Scan} (hp : s.params.ok = true) (hinv : Inv s) (htr : s.transfers = true)
    (hcase : StepCase s t) (h : Agrees s S) :
    Agrees t (feed s.params S s.edge.inData s.edge.mode).1 ∧
      t.record = (feed s.params S s.edge.inData s.edge.mode).2 := by
  cases hcase with
  | silent hno => simp [htr] at hno
  | scan hst => exact feed_scan hst h _
  | opcode hst => exact feed_opcode hp hst h _
  | payload hst => exact feed_payload hp hinv hst h _ _

/-- One edge refines `feedAll` over the byte it transfers, if any. -/
theorem stepCase_refines {s t : State} {S : Scan} (hp : s.params.ok = true) (hinv : Inv s) (hrst : s.edge.rst = false)
    (hcase : StepCase s t) (h : Tracks s S) :
    Tracks t (feedAll s.params S (edgeBytes s)).1 ∧
      t.emitted = s.emitted ++ (feedAll s.params S (edgeBytes s)).2 := by
  cases htr : s.transfers with
  | false =>
    obtain rfl : silentEdge s = t := by
      have heq : Host.Outcome.next (silentEdge s) = .next t := (step_of_silent hp htr).symm.trans (step_of_case hp hcase)
      injection heq
    simpa [edgeBytes, htr, feedAll] using silentEdge_tracks hrst h
  | true =>
    obtain ⟨-, hready, -, -⟩ := transfers_iff.mp htr
    have hphase : s.st ≠ .out ∧ s.st ≠ .eos := by
      rcases inReady_iff.mp hready with hst | hst | hst <;> simp [hst]
    obtain ⟨hagrees, hrecord⟩ := feed_stepCase hp hinv htr hcase ((tracks_iff_agrees hphase.2).mp h)
    have hsink : t.sink = s.sink := by simpa [handsOver_of_transfers htr] using stepCase_sink hp hcase
    simp only [edgeBytes, htr, if_true, feedAll, List.append_nil]
    exact ⟨tracks_of_agrees hagrees, by rw [emitted_of_not_out hphase.1, State.emitted, hsink, hrecord]⟩

/-! ## O22: edge after edge -/

theorem run_refines {n : Nat} {s t : State} {S : Scan} (hp : s.params.ok = true) (hinv : Inv s) (h : Tracks s S)
    (hrst : ∀ e ∈ s.inputs.take n, e.rst = false) (hrun : Host.Core.run Sys2Proof.core n s = .next t) :
    t.emitted = s.emitted ++ (feedAll s.params S (transferred n s)).2 ∧
      Tracks t (feedAll s.params S (transferred n s)).1 := by
  induction n generalizing s S with
  | zero =>
    obtain rfl : s = t := by
      rw [run_zero] at hrun
      injection hrun
    exact ⟨by simp [transferred, feedAll], h⟩
  | succ n ih =>
    obtain ⟨u, hstep, hrest⟩ := run_succ_next hrun
    obtain ⟨-, hcase⟩ := step_next_iff.mp hstep
    obtain ⟨hrst0, hrst'⟩ := edge_rst_of_take hrst
    obtain ⟨htracks, hemits⟩ := stepCase_refines hp hinv hrst0 hcase h
    have hparams := stepCase_params hp hcase
    rw [← stepCase_inputs hp hcase] at hrst'
    obtain ⟨hemits', htracks'⟩ := ih (hparams ▸ hp) (stepCase_keeps_inv hp hinv hcase) htracks hrst' hrest
    rw [hparams] at hemits' htracks'
    rw [transferred_succ hstep, feedAll_append]
    exact ⟨by rw [hemits', hemits, List.append_assoc], htracks'⟩

/-- Settles O22: agreement is tracked along the run, by one `feedAll` per edge. -/
theorem edgesRefineTheTransactionLevel : Obligations.EdgesRefineTheTransactionLevel :=
  fun _ _ _ _ hp hinv hagrees hrst hrun => run_refines hp hinv (tracks_of_agrees hagrees) hrst hrun

end Sys2Proof.Machine
end

section
/-! SUPPORT. 40_sync.md R107: a frame offered whole is consumed whole, by its marker, its opcode and its payload, and ends where
the validity check says (O23). -/

namespace Sys2Proof.Machine

/-! ## Offered bytes -/

/-- The source offers a byte on each of these edges. -/
def Offers (es : List Edge) : Prop := ∀ e ∈ es, e.rst = false ∧ e.inErr = false ∧ e.inValid = true

theorem offers_tail {e : Edge} {es : List Edge} (h : Offers (e :: es)) : Offers es :=
  fun x hx => h x (List.mem_cons_of_mem e hx)

theorem edge_of_inputs {s : State} {e : Edge} {es : List Edge} (h : s.inputs = e :: es) : s.edge = e := by
  simp [State.edge, h]

theorem tail_of_inputs {s : State} {e : Edge} {es : List Edge} (h : s.inputs = e :: es) : s.inputs.tail = es := by
  simp [h]

/-- A read phase takes the byte it is offered (10_state.md R21). -/
theorem transfers_of_offers {s : State} {e : Edge} {es rest : List Edge} (hready : s.inReady = true)
    (hin : s.inputs = e :: es ++ rest) (h : Offers (e :: es)) : s.transfers = true := by
  rw [transfers_iff, edge_of_inputs hin]
  obtain ⟨hrst, herr, hvalid⟩ := h e List.mem_cons_self
  exact ⟨hrst, hready, herr, hvalid⟩

/-! ## The state at the end of a frame -/

/-- Where a frame of opcode `op`, mode `m` and length `len` ends from `s`: the registers and the buffer `b` hold it, and it is
presented or discarded (R99). -/
def frameEnd (m : Mode) (op : Byte) (len : Len) (b : Vector Byte 20) (rest : List Edge) (s : State) : State :=
  { s with
    st := if valid s.params m op (payloadOf op b len) = true then .out else .hunt
    modeL := m
    opcR := op
    lenR := len
    cnt := len
    buf := b
    inputs := rest }

/-- The record at the end of a frame is the entry's, exactly where it is valid. -/
theorem frameEnd_record {s : State} {m : Mode} {op : Byte} {len : Len} {k : Kind} (hp : s.params.ok = true)
    (hl : lookup s.params m op = .entry len k) (b : Vector Byte 20) (rest : List Edge) :
    (frameEnd m op len b rest s).record =
      if valid s.params m op (payloadOf op b len) = true then recordOf s.params m op (payloadOf op b len) else none := by
  have hentry : entryLength s.params m op = some len := entryLength_eq_some.mpr ⟨k, hl⟩
  split
  next hv => exact record_of_entry (s := frameEnd m op len b rest s) hp (if_pos hv) hentry
  next hv =>
    have hhunt : (frameEnd m op len b rest s).st = .hunt := if_neg hv
    exact record_of_not_out (by simp [hhunt])

/-- The last payload edge ends the frame. -/
theorem afterPayload_eq_frameEnd {s : State} (hlast : s.cnt + 1 = s.lenR) (b : Byte) :
    afterPayload b s =
      frameEnd s.modeL s.opcR s.lenR (s.buf.setIfInBounds s.cnt.toNat b) s.inputs.tail s := by
  rw [afterPayload, if_pos hlast, hlast, frameEnd]

/-- An entry without a payload ends its frame on the opcode edge (R96). -/
theorem acceptOpcode_zero_eq_frameEnd {s : State} {op : Byte} {k : Kind}
    (hl : lookup s.params s.edge.mode op = .entry 0 k) :
    acceptOpcode op s = frameEnd s.edge.mode op 0 s.buf s.inputs.tail s := by
  rw [acceptOpcode_zero hl, frameEnd, if_pos (valid_zero hl _)]

/-! ## The edges of a frame, from its last one back -/

/-- The rest of a payload, offered whole: by induction on the bytes still to come. -/
theorem run_payload {s : State} {es rest : List Edge} (hp : s.params.ok = true) (hst : s.st = .pay)
    (hfit : s.lenR.toNat ≤ 20) (hne : es ≠ []) (hcount : s.cnt.toNat + es.length = s.lenR.toNat)
    (hin : s.inputs = es ++ rest) (hoff : Offers es) :
    ∃ b, b.toList.take s.lenR.toNat = s.buf.toList.take s.cnt.toNat ++ es.map Edge.inData ∧
      Host.Core.run Sys2Proof.core es.length s = .next (frameEnd s.modeL s.opcR s.lenR b rest s) := by
  induction es generalizing s with
  | nil => exact absurd rfl hne
  | cons e es ih =>
    rw [List.length_cons] at hcount
    have hcnt : s.cnt.toNat < 20 := by omega
    have hsucc := cnt_succ_toNat hcnt
    have htr := transfers_of_offers (inReady_iff.mpr (.inr (.inr hst))) hin hoff
    have hstep : step s = .next (afterPayload e.inData s) := by
      rw [step_of_payload hp hst htr, takePayload_eq hcnt, edge_of_inputs hin]
    have hstored := take_succ_setIfInBounds s.buf hcnt e.inData
    rw [List.length_cons, run_succ_of_step hstep]
    by_cases hnil : es = []
    · subst hnil
      have hlast : s.cnt + 1 = s.lenR := BitVec.eq_of_toNat_eq (hsucc.trans hcount)
      refine ⟨s.buf.setIfInBounds s.cnt.toNat e.inData, ?_, ?_⟩
      · rw [← hlast, hsucc, hstored]
        rfl
      · rw [List.length_nil, run_zero, afterPayload_eq_frameEnd hlast, tail_of_inputs hin]
        rfl
    · have hmore : s.cnt + 1 ≠ s.lenR := by
        have hpos : 0 < es.length := List.length_pos_iff.mpr hnil
        intro h
        rw [← h, hsucc] at hcount
        omega
      have hgoes : (afterPayload e.inData s).st = .pay := (if_neg hmore).trans hst
      have hcount' : (s.cnt + 1).toNat + es.length = s.lenR.toNat := by omega
      obtain ⟨b, hb, hrun⟩ :=
        ih (s := afterPayload e.inData s) hp hgoes hfit hnil hcount' (tail_of_inputs hin) (offers_tail hoff)
      refine ⟨b, ?_, hrun⟩
      calc b.toList.take s.lenR.toNat
          = (s.buf.setIfInBounds s.cnt.toNat e.inData).toList.take (s.cnt + 1).toNat ++ es.map Edge.inData := hb
        _ = s.buf.toList.take s.cnt.toNat ++ (e :: es).map Edge.inData := by rw [hsucc, hstored]; simp

/-- The opcode and its payload. -/
theorem run_opcode_payload {s : State} {e : Edge} {es rest : List Edge} {len : Len} {k : Kind}
    (hp : s.params.ok = true) (hst : s.st = .opc) (hl : lookup s.params e.mode e.inData = .entry len k)
    (hlen : es.length = len.toNat) (hin : s.inputs = e :: es ++ rest) (hoff : Offers (e :: es)) :
    ∃ b, b.toList.take len.toNat = es.map Edge.inData ∧
      Host.Core.run Sys2Proof.core (es.length + 1) s = .next (frameEnd e.mode e.inData len b rest s) := by
  have htr := transfers_of_offers (inReady_iff.mpr (.inr (.inl hst))) hin hoff
  have hedge := edge_of_inputs hin
  have hstep := step_of_opcode hp hst htr
  rw [← hedge] at hl
  rw [run_succ_of_step hstep]
  by_cases h0 : len = 0
  · subst h0
    obtain rfl : es = [] := List.eq_nil_of_length_eq_zero hlen
    refine ⟨s.buf, rfl, ?_⟩
    rw [List.length_nil, run_zero, acceptOpcode_zero_eq_frameEnd hl, tail_of_inputs hin, hedge]
    rfl
  · have hne : es ≠ [] := by
      rintro rfl
      exact h0 (BitVec.eq_of_toNat_eq hlen.symm)
    rw [acceptOpcode_entry hl h0, hedge]
    obtain ⟨b, hb, hrun⟩ := run_payload
      (s := { s with
        st := .pay, opcR := e.inData, modeL := e.mode, cnt := 0, lenR := len, inputs := s.inputs.tail })
      hp rfl (lookup_length_le hp hl) hne ((Nat.zero_add _).trans hlen) (tail_of_inputs hin) (offers_tail hoff)
    exact ⟨b, hb, hrun⟩

/-- The marker, the opcode and its payload. -/
theorem run_frame {s : State} {e₀ e : Edge} {es rest : List Edge} {len : Len} {k : Kind} (hp : s.params.ok = true)
    (hst : s.st = .hunt) (hmarker : e₀.inData = 0x02) (hl : lookup s.params e.mode e.inData = .entry len k)
    (hlen : es.length = len.toNat) (hin : s.inputs = e₀ :: e :: es ++ rest) (hoff : Offers (e₀ :: e :: es)) :
    ∃ b, b.toList.take len.toNat = es.map Edge.inData ∧
      Host.Core.run Sys2Proof.core (es.length + 2) s = .next (frameEnd e.mode e.inData len b rest s) := by
  have htr := transfers_of_offers (inReady_iff.mpr (.inl hst)) hin hoff
  have hstep : step s = .next (s.tick.goto .opc) := by
    rw [step_of_scan hp hst htr, scanByte, edge_of_inputs hin, if_pos hmarker]
  rw [run_succ_of_step hstep]
  exact run_opcode_payload (s := s.tick.goto .opc) hp rfl hl hlen (tail_of_inputs hin) (offers_tail hoff)

/-! ## O23 -/

/-- Settles O23: the frame's run ends in `frameEnd`, which has every part of the statement. -/
theorem frameIsConsumedWhole : Obligations.FrameIsConsumedWhole := by
  intro s m op len k P es rest hp hst hl hP hin hbytes hoff hmode
  obtain ⟨e₀, es, rfl, hmarker, hbytes⟩ := List.map_eq_cons_iff.mp hbytes
  obtain ⟨e, es, rfl, rfl, rfl⟩ := List.map_eq_cons_iff.mp hbytes
  obtain rfl : e.mode = m := by simpa using hmode
  rw [List.length_map] at hP
  obtain ⟨b, hb, hrun⟩ := run_frame hp hst hmarker hl hP hin hoff
  rw [hP] at hrun
  exact ⟨_, hrun, rfl, rfl, rfl, rfl, rfl, rfl, rfl, hb, rfl, frameEnd_record hp hl b rest⟩

end Sys2Proof.Machine
end

section
/-! SUPPORT. The last payload byte of a frame (40_sync.md R99, R100, R130): the record that the frame's kind gives its payload is
presented, and a frame that has none is discarded (O50). -/

namespace Sys2Proof.Machine

/-! ## The check is what the record needs -/

theorem recordOf_of_entry {p : Params} {m : Mode} {op : Byte} {len : Len} {k : Kind}
    (hl : lookup p m op = .entry len k) (P : Payload) : recordOf p m op P = recKind p k op len P := by
  simp only [recordOf, hl]

/-- The kinds that can fail to have a record are those that the check tests, each by its own table or codec. -/
theorem valid_of_recordOf_isSome {p : Params} {m : Mode} {op : Byte} {len : Len} {k : Kind} {P : Payload}
    (hl : lookup p m op = .entry len k) (hrec : (recordOf p m op P).isSome = true) : valid p m op P = true := by
  rw [recordOf_of_entry hl] at hrec
  simp only [valid, hl]
  cases k with
  | msg mk =>
    cases mk with
    | x10Received => simpa [recKind, recX10Received] using hrec
    | linkComplete => simpa [recKind, recLinkComplete, linkResult] using hrec
    | buttonEvent => simpa [recKind, recButtonEvent] using hrec
    | _ => rfl
  | rsp rk =>
    cases rk with
    | x10Sent => simpa [recKind, recX10Sent] using hrec
    | _ => rfl

theorem recordOf_isSome_iff_valid {p : Params} {m : Mode} {op : Byte} {len : Len} {k : Kind} {P : Payload}
    (hl : lookup p m op = .entry len k) : (recordOf p m op P).isSome = true ↔ valid p m op P = true :=
  ⟨valid_of_recordOf_isSome hl, fun hv => Option.isSome_iff_exists.mpr (recordOf_of_valid hl hv)⟩

/-- Settles O50: by what the lookup answers; an UNSUPPORTED opcode has its own record, whatever the payload. -/
theorem recordExistsExactlyWhenValid : Obligations.RecordExistsExactlyWhenValid := by
  intro p m op P
  cases hl : lookup p m op with
  | none => simp [recordOf, hl]
  | unsupported => simp [recordOf, valid, hl]
  | entry len k => simpa using recordOf_isSome_iff_valid hl

theorem outUnsup_of_msg {s : State} (hmode : s.modeL = .msg) : s.outUnsup = false := by
  simp [State.outUnsup, hmode]

/-- Where `out_unsup` is 0, OUT shows `REC` of the frame (R130). -/
theorem record_of_supported {s : State} (hst : s.st = .out) (hunsup : s.outUnsup = false) :
    s.record = recordOf s.params s.modeL s.opcR s.payload := by
  simp [record_of_out hst, hunsup]

/-! ## A frame that waits for its last byte -/

/-- `s` has taken the `n` bytes before the last one of a kind-`k` frame of length `len`. -/
structure AwaitsLastByte (s : State) (k : Kind) (len : Len) (n : Nat) : Prop where
  st : s.st = .pay
  row : lookup s.params s.modeL s.opcR = .entry len k
  unsup : s.outUnsup = false
  length : s.lenR = len
  index : s.cnt.toNat = n
  last : n + 1 = len.toNat
  fits : n < 20

/-- A message frame is of the kind and length of its row of the message table, under every parameter set. -/
theorem awaitsLastByte_of_msgTable {s : State} {op : Byte} {len : Len} {mk : MsgKind} {n : Nat}
    (hrow : (op, len, mk) ∈ msgTable) (hst : s.st = .pay) (hmode : s.modeL = .msg) (hop : s.opcR = op)
    (hlen : s.lenR = len) (hcnt : s.cnt = BitVec.ofNat 5 n) (hlast : n + 1 = len.toNat) :
    AwaitsLastByte s (.msg mk) len n where
  st := hst
  row := by rw [hmode, hop, lookup_msg_of_mem hrow]
  unsup := outUnsup_of_msg hmode
  length := hlen
  index := by simp [hcnt]; omega
  last := hlast
  fits := by
    have hle : ∀ r ∈ msgTable, r.2.1.toNat ≤ 20 := by decide
    have : len.toNat ≤ 20 := hle _ hrow
    omega

/-- A frame of any entry, under well-formed parameters. -/
theorem awaitsLastByte_of_entry {s : State} {m : Mode} {len : Len} {k : Kind} {n : Nat} (hp : s.params.ok = true)
    (hst : s.st = .pay) (hmode : s.modeL = m) (hl : lookup s.params m s.opcR = .entry len k) (hlen : s.lenR = len)
    (hcnt : s.cnt = BitVec.ofNat 5 n) (hlast : n + 1 = len.toNat) : AwaitsLastByte s k len n := by
  subst hmode
  have hle := lookup_length_le hp hl
  have hindex : s.cnt.toNat = n := by simp [hcnt]; omega
  exact ⟨hst, hl, outUnsup_of_entry hp (entryLength_eq_some.mpr ⟨k, hl⟩), hlen, hindex, hlast, by omega⟩

namespace AwaitsLastByte

variable {s : State} {k : Kind} {len : Len} {n : Nat} {b : Byte} {i : Instr}

theorem kind_eq (h : AwaitsLastByte s k len n) : s.kind = some k := lookupKind_eq.mpr ⟨len, h.row⟩

theorem cnt_succ (h : AwaitsLastByte s k len n) : s.cnt + 1 = s.lenR := by
  obtain ⟨-, -, -, hlen, hcnt, hlast, hfits⟩ := h
  rw [hlen]
  exact BitVec.eq_of_toNat_eq (by rw [cnt_succ_toNat (by omega), hcnt, hlast])

/-- An instruction that takes the byte. -/
theorem exec_of_takePayload (h : AwaitsLastByte s k len n) (hi : exec i s = takePayload b s) :
    exec i s = .next (afterPayload b s) := by
  rw [hi, takePayload_eq (h.index ▸ h.fits)]

/-- The frame row of the kind. -/
theorem exec_of_runFrame (h : AwaitsLastByte s k len n) (hi : exec i s = runFrame k (.payload b) s) :
    exec i s = .next (afterPayload b s) :=
  h.exec_of_takePayload (hi.trans (runFrame_payload h.st h.kind_eq))

/-! ### The whole payload: the bytes taken before, then the last one -/

theorem payload_eq (h : AwaitsLastByte s k len n) :
    (afterPayload b s).payload = payloadOf s.opcR (s.buf.set n b h.fits) s.lenR := by
  obtain ⟨-, -, -, -, rfl, -, hfits⟩ := h
  rw [← setIfInBounds_eq_set s.buf s.cnt.toNat b hfits]
  rfl

theorem payload_taken (h : AwaitsLastByte s k len n) {j : Nat} (hj : j < n) :
    (afterPayload b s).payload j = s.buf[j]'(hj.trans h.fits) := by
  have hin : j < s.lenR.toNat := by rw [h.length, ← h.last]; omega
  have hbuf : j < 20 := hj.trans h.fits
  simp [h.payload_eq, payloadOf, hin, hbuf, hj.ne']

theorem payload_last (h : AwaitsLastByte s k len n) : (afterPayload b s).payload n = b := by
  have hin : n < s.lenR.toNat := by rw [h.length, ← h.last]; omega
  simp [h.payload_eq, payloadOf, hin, h.fits]

/-! ### The decision -/

theorem recordOf_eq (h : AwaitsLastByte s k len n) (P : Payload) :
    recordOf s.params s.modeL s.opcR P = recKind s.params k s.opcR len P := recordOf_of_entry h.row P

/-- A payload that the kind gives a record completes the frame and shows it. -/
theorem presents {rec : Record} (h : AwaitsLastByte s k len n)
    (hrec : recKind s.params k s.opcR len (afterPayload b s).payload = some rec) :
    afterPayload b s =
        { s with st := .out, buf := s.buf.set n b h.fits, cnt := len, inputs := s.inputs.tail } ∧
      (afterPayload b s).record = some rec := by
  rw [← h.recordOf_eq] at hrec
  have hvalid : valid s.params s.modeL s.opcR (afterPayload b s).payload = true :=
    valid_of_recordOf_isSome h.row (Option.isSome_of_eq_some hrec)
  rw [h.payload_eq] at hvalid
  have heq := afterPayload_last h.fits h.index h.cnt_succ hvalid
  have hout : (afterPayload b s).st = .out := by rw [heq]
  refine ⟨by rw [heq, h.length], ?_⟩
  have hunsup : (afterPayload b s).outUnsup = false := h.unsup
  exact (record_of_supported hout hunsup).trans hrec

/-- A payload that the kind gives no record discards the frame (R105). -/
theorem discards (h : AwaitsLastByte s k len n)
    (hrec : recKind s.params k s.opcR len (afterPayload b s).payload = none) :
    (afterPayload b s).st = .hunt ∧ (afterPayload b s).record = none := by
  rw [← h.recordOf_eq] at hrec
  have hvalid : valid s.params s.modeL s.opcR (afterPayload b s).payload = false := by
    rw [← Bool.not_eq_true, ← recordOf_isSome_iff_valid h.row, hrec]
    simp
  rw [h.payload_eq] at hvalid
  have hhunt : (afterPayload b s).st = .hunt := by rw [afterPayload_discard h.fits h.index h.cnt_succ hvalid]
  exact ⟨hhunt, record_of_not_out (by simp [hhunt])⟩

/-- The edge of an instruction whose byte completes a frame with a record. -/
theorem exec_presents {rec : Record} (h : AwaitsLastByte s k len n) (hi : exec i s = .next (afterPayload b s))
    (hrec : recKind s.params k s.opcR len (afterPayload b s).payload = some rec) :
    ∃ t, exec i s = .next t ∧
      t = { s with st := .out, buf := s.buf.set n b h.fits, cnt := len, inputs := s.inputs.tail } ∧
      t.record = some rec :=
  ⟨_, hi, h.presents hrec⟩

/-- The edge of a frame row whose kind has a record exactly where its payload decodes. -/
theorem exec_decides {α : Type} {decoded : Option α} {build : α → Record} (h : AwaitsLastByte s k len n)
    (hi : exec i s = runFrame k (.payload b) s)
    (hrec : recKind s.params k s.opcR len (afterPayload b s).payload = decoded.map build) :
    exec i s = .next (afterPayload b s) ∧
      (∀ x, decoded = some x → (afterPayload b s).st = .out ∧ (afterPayload b s).record = some (build x)) ∧
      (decoded = none → (afterPayload b s).st = .hunt ∧ (afterPayload b s).record = none) := by
  refine ⟨h.exec_of_runFrame hi, fun x hx => ?_, fun hnone => ?_⟩
  · obtain ⟨heq, hshown⟩ := h.presents (by rw [hrec, hx]; rfl)
    exact ⟨by rw [heq], hshown⟩
  · exact h.discards (by rw [hrec, hnone]; rfl)

end AwaitsLastByte

end Sys2Proof.Machine
end

section
/-! SUPPORT. The records of the message frames: 41_message_frames.md R120 to R129 (O32, O37, O39 to O44). Each frame is in the
message table, and its record's fields are read off the bytes taken and the last one. -/

namespace Sys2Proof.Machine

/-! ## The bytes and the codecs that the fields read -/

theorem bytesAt_succ (P : Payload) (start len : Nat) :
    bytesAt P start (len + 1) = bytesAt P start len ++ [P (start + len)] := by
  simp [bytesAt, List.range_succ]

/-- A field of bytes taken before the last one is that stretch of the buffer. -/
theorem AwaitsLastByte.bytesAt_taken {s : State} {k : Kind} {len : Len} {n : Nat} {b : Byte}
    (h : AwaitsLastByte s k len n) {start count : Nat} (hin : start + count ≤ n) :
    bytesAt (afterPayload b s).payload start count = (s.buf.toList.drop start).take count := by
  have hfits := h.fits
  refine List.ext_getElem (by simp [bytesAt]; omega) fun j hj _ => ?_
  have hcount : j < count := by simpa [bytesAt] using hj
  simp [bytesAt, h.payload_taken (show start + j < n by omega)]

/-- A field that ends with the payload ends with the last byte (R121). -/
theorem AwaitsLastByte.bytesAt_last {s : State} {k : Kind} {len : Len} {n : Nat} {b : Byte}
    (h : AwaitsLastByte s k len n) {start count : Nat} (hend : start + count = n) :
    bytesAt (afterPayload b s).payload start (count + 1) = (s.buf.toList.drop start).take count ++ [b] := by
  rw [bytesAt_succ, h.bytesAt_taken hend.le, hend, h.payload_last]

/-- The success field of an X10 message is the test of its status byte, whatever else the message holds (R175). -/
theorem x10Dec_success {b0 b1 b2 : Byte} {x : X10Message} (h : x10Dec b0 b1 b2 = some x) : x.success = (b2 == 0x06) := by
  simp only [x10Dec] at h
  split_ifs at h <;> (injection h with h; subst h; rfl)

theorem x10Dec_map_success {α : Type} (b0 b1 b2 : Byte) (build : X10Index → X10Payload → Bool → α) :
    (x10Dec b0 b1 b2).map (fun x => build x.house x.payload x.success) =
      (x10Dec b0 b1 b2).map (fun x => build x.house x.payload (b2 == 0x06)) :=
  Option.map_congr fun _ hx => by rw [x10Dec_success hx]

/-! ## The button rows by the byte they take -/

theorem btnRows_instr : ∀ row ∈ btnRows, row.1 = buttonInstr row.2.2 := by decide

/-- A button row takes the byte that the table gives its pair (R131). -/
theorem exec_btnRow {row : Instr × Byte × Button × ButtonAction} (hrow : row ∈ btnRows) {s : State} {b : Byte}
    (hp : s.params.ok = true) (hb : buttonOf s.params b = some row.2.2) (hst : s.st = .pay)
    (hk : s.kind = some (.msg .buttonEvent)) (hcnt : s.cnt.toNat = 0) : exec row.1 s = takePayload b s := by
  rw [btnRows_instr row hrow, buttonInstr_eq hp hb hst hk hcnt]

/-- The frame of a button event, which has its one byte yet to come. -/
theorem awaitsLastByte_buttonEvent {s : State} (hst : s.st = .pay) (hmode : s.modeL = .msg) (hop : s.opcR = 0x54)
    (hlen : s.lenR = 1) (hcnt : s.cnt = 0) : AwaitsLastByte s (.msg .buttonEvent) 1 0 :=
  awaitsLastByte_of_msgTable (by decide) hst hmode hop hlen hcnt rfl

theorem AwaitsLastByte.recKind_buttonEvent {s : State} (h : AwaitsLastByte s (.msg .buttonEvent) 1 0) (b op : Byte) :
    recKind s.params (.msg .buttonEvent) op 1 (afterPayload b s).payload =
      (buttonOf s.params b).map fun bt => .buttonEvent (button := bt.1) (action := bt.2) := by
  simp only [recKind, recButtonEvent, h.payload_last]

/-! ## O32, O37, O39 to O44 -/

/-- Settles O32: the row of length 0 ends on its opcode edge. -/
theorem userResetPresentsItsRecord : Obligations.UserResetPresentsItsRecord := by
  intro s hst hmode
  have hl := lookup_msg_userReset s.params
  refine ⟨_, runFrame_accept_zero hst hmode hl, rfl, ?_⟩
  rw [record_of_supported rfl (outUnsup_of_msg rfl)]
  exact recordOf_of_entry hl _

/-- Settles O37: the row takes the byte of its pair, which the table gives back. -/
theorem buttonByteCompletesTheFrame : Obligations.ButtonByteCompletesTheFrame := by
  intro row hrow s b hp hb hst hmode hop hlen hcnt
  have h := awaitsLastByte_buttonEvent hst hmode hop hlen hcnt
  have hexec := h.exec_of_takePayload (exec_btnRow hrow hp hb hst h.kind_eq h.index)
  exact h.exec_presents hexec (by rw [h.recKind_buttonEvent, hb]; rfl)

/-- Settles O39: the flags are the last byte. -/
theorem receivedStdRecord : Obligations.ReceivedStdRecord := by
  intro s b hst hmode hop hlen hcnt
  have h : AwaitsLastByte s (.msg .receivedStd) 6 5 :=
    awaitsLastByte_of_msgTable (by decide) hst hmode hop hlen hcnt rfl
  refine h.exec_presents (h.exec_of_runFrame rfl) ?_
  simp [recKind, recReceivedStd, addressAt, addressValueAt, h.payload_taken, h.payload_last]

/-- Settles O40: the extended block ends with the last byte. -/
theorem receivedExtRecord : Obligations.ReceivedExtRecord := by
  intro s b hst hmode hop hlen hcnt
  have h : AwaitsLastByte s (.msg .receivedExt) 20 19 :=
    awaitsLastByte_of_msgTable (by decide) hst hmode hop hlen hcnt rfl
  have hext := h.bytesAt_last (b := b) (start := 6) (count := 13) rfl
  refine h.exec_presents (h.exec_of_runFrame rfl) ?_
  simp only [recKind, recReceivedExt, hext]
  simp [addressAt, addressValueAt, h.payload_taken]

/-- Settles O41: both frames read the one codec. -/
theorem x10Records : Obligations.X10Records := by
  intro s b hst hlen hcnt
  refine ⟨fun hmode hop => ?_, fun hp hmode hl => ?_⟩
  · have h : AwaitsLastByte s (.msg .x10Received) 3 2 :=
      awaitsLastByte_of_msgTable (by decide) hst hmode hop hlen hcnt rfl
    refine h.exec_decides rfl ?_
    rw [← x10Dec_map_success]
    simp [recKind, recX10Received, h.payload_taken, h.payload_last]
  · have h : AwaitsLastByte s (.rsp .x10Sent) 3 2 := awaitsLastByte_of_entry hp hst hmode hl hlen hcnt rfl
    refine h.exec_decides rfl ?_
    rw [← x10Dec_map_success]
    simp [recKind, recX10Sent, x10SentMessage, h.payload_taken, h.payload_last]

/-- Settles O42: the role byte decides, and the last byte is the firmware. -/
theorem linkCompleteRecord : Obligations.LinkCompleteRecord := by
  intro s b hst hmode hop hlen hcnt
  have h : AwaitsLastByte s (.msg .linkComplete) 8 7 :=
    awaitsLastByte_of_msgTable (by decide) hst hmode hop hlen hcnt rfl
  refine h.exec_decides rfl ?_
  simp [recKind, recLinkComplete, linkResult, addressAt, addressValueAt, categoryValid, firmwareOf, h.payload_taken,
    h.payload_last, Function.comp_def]

/-- Settles O43: the one byte decides. -/
theorem buttonEventRecord : Obligations.ButtonEventRecord := by
  intro s b hst hmode hop hlen hcnt
  have h := awaitsLastByte_buttonEvent hst hmode hop hlen hcnt
  exact h.exec_decides rfl (h.recKind_buttonEvent b s.opcR)

/-- Settles O44: four kinds that give every payload a record. -/
theorem otherMessageRecords : Obligations.OtherMessageRecords := by
  intro s b hst hmode
  refine ⟨fun hop hlen hcnt => ?cleanupFailed, fun hop hlen hcnt => ?linkRecord, fun hop hlen hcnt => ?cleanupStatus,
    fun hop hlen hcnt => ?databaseRecord⟩
  case cleanupFailed =>
    have h : AwaitsLastByte s (.msg .linkCleanupFailed) 5 4 :=
      awaitsLastByte_of_msgTable (by decide) hst hmode hop hlen hcnt rfl
    refine h.exec_presents (h.exec_of_runFrame rfl) ?_
    simp [recKind, recLinkCleanupFailed, addressAt, addressValueAt, h.payload_taken, h.payload_last]
  case linkRecord =>
    have h : AwaitsLastByte s (.msg .linkRecordResponse) 8 7 :=
      awaitsLastByte_of_msgTable (by decide) hst hmode hop hlen hcnt rfl
    refine h.exec_presents (h.exec_of_runFrame rfl) ?_
    simp [recKind, recLinkRecordResponse, addressAt, addressValueAt, h.payload_taken, h.payload_last]
  case cleanupStatus =>
    have h : AwaitsLastByte s (.msg .linkCleanupStatus) 1 0 :=
      awaitsLastByte_of_msgTable (by decide) hst hmode hop hlen hcnt rfl
    refine h.exec_presents (h.exec_of_runFrame rfl) ?_
    simp [recKind, recLinkCleanupStatus, success, okByte, h.payload_last]
  case databaseRecord =>
    have h : AwaitsLastByte s (.msg .databaseRecordFound) 10 9 :=
      awaitsLastByte_of_msgTable (by decide) hst hmode hop hlen hcnt rfl
    refine h.exec_presents (h.exec_of_runFrame rfl) ?_
    simp [recKind, recDatabaseRecordFound, pairValue, addressAt, addressValueAt, h.payload_taken, h.payload_last]

end Sys2Proof.Machine
end

section
/-! SUPPORT. 42_response_frames.md R162: the frame of an extension entry, which no row claims (O51). Its kind gives every payload
a record, and each field of the layout is a stretch of the frame's own bytes. -/

namespace Sys2Proof.Machine

/-- Inside the frame a field is that stretch of the buffer (10_state.md R31). -/
theorem bytesAt_payloadOf {op : Byte} {buf : Vector Byte 20} {len : Len} {start count : Nat} (hfits : len.toNat ≤ 20)
    (hin : start + count ≤ len.toNat) :
    bytesAt (payloadOf op buf len) start count = (buf.toList.drop start).take count := by
  refine List.ext_getElem (by simp [bytesAt]; omega) fun j hj _ => ?_
  have hcount : j < count := by simpa [bytesAt] using hj
  have hframe : start + j < len.toNat := by omega
  have hbuf : start + j < 20 := by omega
  simp [bytesAt, payloadOf, hframe, hbuf]

/-- The record of an extension whose layout lies inside the frame. -/
theorem recExtension_payloadOf {layout : List LayoutField} {op : Byte} {buf : Vector Byte 20} {len : Len}
    (hfits : len.toNat ≤ 20) (hin : ∀ f ∈ layout, f.start + f.len ≤ len.toNat) :
    recExtension layout op (payloadOf op buf len) =
      .extension (opcode := op) (fields := layout.map fun f => (f.name, (buf.toList.drop f.start).take f.len)) :=
  congrArg (Record.extension op) <| List.map_congr_left fun f hf =>
    congrArg (Prod.mk f.name) (bytesAt_payloadOf hfits (hin f hf))

/-- The kind alone gives an extension its record, whatever the payload. -/
theorem recordOf_of_extension {p : Params} {m : Mode} {op : Byte} {layout : List LayoutField}
    (hk : lookupKind p m op = some (.rsp (.extension layout))) (P : Payload) :
    recordOf p m op P = some (recExtension layout op P) := by
  obtain ⟨len, hl⟩ := lookupKind_eq.mp hk
  exact recordOf_of_entry hl P

/-- No extension frame is discarded (40_sync.md R100). -/
theorem valid_of_extension {p : Params} {m : Mode} {op : Byte} {layout : List LayoutField}
    (hk : lookupKind p m op = some (.rsp (.extension layout))) (P : Payload) : valid p m op P = true := by
  obtain ⟨len, hl⟩ := lookupKind_eq.mp hk
  exact valid_of_recordOf_isSome hl (by rw [recordOf_of_extension hk]; rfl)

/-- The last payload byte of an extension frame presents its record (R99). -/
theorem afterPayload_record_of_extension {s : State} {layout : List LayoutField} (hp : s.params.ok = true)
    (hk : s.kind = some (.rsp (.extension layout))) (hlast : s.cnt + 1 = s.lenR) (b : Byte) :
    (afterPayload b s).record = some (recExtension layout s.opcR (afterPayload b s).payload) := by
  obtain ⟨len, hl⟩ := lookupKind_eq.mp hk
  have hout : (afterPayload b s).st = .out := by
    rw [afterPayload_st_of_last hlast, if_pos (valid_of_extension hk _)]
  have hlen : entryLength s.params s.modeL s.opcR = some len := entryLength_eq_some.mpr ⟨_, hl⟩
  exact (record_of_entry (s := afterPayload b s) hp hout hlen).trans (recordOf_of_extension hk _)

/-- Settles O51: the opcode edge by its length, the payload edge by its two equations, the record by the kind alone. -/
theorem extensionFrameIsTaken : Obligations.ExtensionFrameIsTaken := by
  intro s len layout hp
  refine ⟨fun hst htr hmode hl => ?opcode, fun hst htr hk hcnt => ⟨?stored, fun hlast hin => ?record⟩⟩
  case opcode =>
    rw [← hmode] at hl ⊢
    rw [step_of_opcode hp hst htr]
    by_cases h0 : len = 0
    · subst h0
      rw [acceptOpcode_zero hl, if_pos rfl]
    · rw [acceptOpcode_entry hl h0, if_neg h0]
  case stored => rw [step_of_payload hp hst htr, takePayload_eq hcnt]
  case record =>
    have hfits : s.lenR.toNat ≤ 20 := by
      rw [← hlast, cnt_succ_toNat hcnt]
      exact hcnt
    have hbuf : s.buf.toList.set s.cnt.toNat s.edge.inData =
        (s.buf.setIfInBounds s.cnt.toNat s.edge.inData).toList := by simp
    rw [afterPayload_record_of_extension hp hk hlast, hbuf]
    exact congrArg some (recExtension_payloadOf hfits hin)

end Sys2Proof.Machine
end

section
/-! SUPPORT. The X10 codec: 43_x10_codec.md R170 to R177 (O52 to O54), and the two rows of its flag byte (O38). To encode a
message and to decode its bytes relate one message to one first byte and one flag; they differ in the status byte alone. -/

namespace Sys2Proof.Machine

/-! ## The nibbles of the first byte (R170 to R172) -/

@[simp] theorem idx2nib_nib2idx : ∀ n : Nibble, idx2nib (nib2idx n) = n := by decide

@[simp] theorem nib2idx_idx2nib : ∀ i : X10Index, nib2idx (idx2nib i) = i := by decide

theorem nib2idx_eq_iff {n : Nibble} {i : X10Index} : nib2idx n = i ↔ n = idx2nib i :=
  ⟨fun h => by rw [← h, idx2nib_nib2idx], fun h => by rw [h, nib2idx_idx2nib]⟩

/-- A byte is its two nibbles (00_scope.md R8). -/
theorem eq_append_nibbles_iff {b : Byte} {hi lo : Nibble} : b = hi ++ lo ↔ highNibble b = hi ∧ lowNibble b = lo := by
  unfold highNibble lowNibble
  constructor
  · rintro rfl
    exact ⟨BitVec.extractLsb'_append_eq_left, BitVec.extractLsb'_append_eq_right⟩
  · rintro ⟨rfl, rfl⟩
    have hjoin : b.extractLsb' 0 (4 + 4) = b.extractLsb' 4 4 ++ b.extractLsb' 0 4 :=
      BitVec.extractLsb'_append_extractLsb'_eq_extractLsb' rfl |>.symm
    rwa [BitVec.extractLsb'_eq_self] at hjoin

/-- The first byte that `X10_ENC` writes for a house and a selector is the one that `X10_DEC` reads as these two. -/
theorem eq_append_idx2nib_iff {b : Byte} {h s : X10Index} :
    b = idx2nib h ++ idx2nib s ↔ nib2idx (highNibble b) = h ∧ nib2idx (lowNibble b) = s := by
  rw [eq_append_nibbles_iff, nib2idx_eq_iff, nib2idx_eq_iff]

/-! ## The status byte (R175, R177) -/

/-- The status byte that `X10_ENC` writes. -/
def x10StatusByte (ok : Bool) : Byte := if ok then okByte else x10FailByte

theorem success_x10StatusByte (ok : Bool) : success (x10StatusByte ok) = ok := by
  cases ok <;> rfl

/-- The status bytes that survive a decode and an encode. -/
theorem x10StatusByte_success_iff {b : Byte} : b = x10StatusByte (success b) ↔ b = 0x06 ∨ b = 0x15 := by
  constructor
  · intro h
    cases hok : success b with
    | true => exact .inl (eq_of_beq hok)
    | false => exact .inr (by rw [h, hok]; rfl)
  · rintro (rfl | rfl) <;> rfl

/-! ## The decoder (R173 to R176) -/

theorem x10Dec_unit (b0 b2 : Byte) :
    x10Dec b0 0x00 b2 = some ⟨nib2idx (highNibble b0), .unit (nib2idx (lowNibble b0)), success b2⟩ := rfl

theorem x10Dec_command {b0 : Byte} (hs : nib2idx (lowNibble b0) ≠ Config.x10CmdHole) (b2 : Byte) :
    x10Dec b0 0x80 b2 = some ⟨nib2idx (highNibble b0), .command (nib2idx (lowNibble b0)), success b2⟩ := if_neg hs

theorem x10Dec_hole {b0 : Byte} (hs : nib2idx (lowNibble b0) = Config.x10CmdHole) (b2 : Byte) :
    x10Dec b0 0x80 b2 = none := if_pos hs

theorem x10Dec_of_other_flag {b1 : Byte} (hunit : b1 ≠ 0x00) (hcommand : b1 ≠ 0x80) (b0 b2 : Byte) :
    x10Dec b0 b1 b2 = none := (if_neg hunit).trans (if_neg hcommand)

/-! ## One message, one first byte and one flag -/

/-- The flag byte of an X10 payload (R174). -/
def x10Flag : X10Payload → Byte
  | .unit _ => 0x00
  | .command _ => 0x80

/-- The selector of an X10 payload: its unit code or its command. -/
def x10Selector : X10Payload → X10Index
  | .unit u => u
  | .command c => c

/-- `b0` and `b1` are the first two bytes of the message `x`, which is one that exists: no command stands at the hole (R176). -/
def X10Bytes (x : X10Message) (b0 b1 : Byte) : Prop :=
  x.payload ≠ .command Config.x10CmdHole ∧ b0 = idx2nib x.house ++ idx2nib (x10Selector x.payload) ∧
    b1 = x10Flag x.payload

/-- The encoder, unit codes and commands alike (R177). -/
theorem x10Enc_eq (x : X10Message) :
    x10Enc x = if x.payload = .command Config.x10CmdHole then none
      else some (idx2nib x.house ++ idx2nib (x10Selector x.payload), x10Flag x.payload, x10StatusByte x.success) := by
  obtain ⟨h, payload, ok⟩ := x
  cases payload with
  | unit u => exact (if_neg nofun).symm
  | command c => simp [x10Enc, x10Selector, x10Flag, x10StatusByte]

theorem x10Enc_eq_none_iff {x : X10Message} : x10Enc x = none ↔ x.payload = .command Config.x10CmdHole := by
  simp [x10Enc_eq]

/-- `X10_ENC` writes the status byte of the message's success (R177). -/
theorem x10Enc_eq_some_iff {x : X10Message} {b0 b1 b2 : Byte} :
    x10Enc x = some (b0, b1, b2) ↔ X10Bytes x b0 b1 ∧ b2 = x10StatusByte x.success := by
  simp only [x10Enc_eq, X10Bytes, Option.ite_none_left_eq_some, Option.some.injEq, Prod.mk.injEq, and_assoc,
    eq_comm (a := b0), eq_comm (a := b1), eq_comm (a := b2), ne_eq]

/-- `X10_DEC` reads the success of the message off the status byte (R173, R175). -/
theorem x10Dec_eq_some_iff {x : X10Message} {b0 b1 b2 : Byte} :
    x10Dec b0 b1 b2 = some x ↔ X10Bytes x b0 b1 ∧ x.success = success b2 := by
  constructor
  · intro hdec
    by_cases hunit : b1 = 0x00
    · subst hunit
      cases hdec
      exact ⟨⟨nofun, eq_append_idx2nib_iff.mpr ⟨rfl, rfl⟩, rfl⟩, rfl⟩
    by_cases hcommand : b1 = 0x80
    · subst hcommand
      by_cases hs : nib2idx (lowNibble b0) = Config.x10CmdHole
      · rw [x10Dec_hole hs] at hdec
        cases hdec
      · rw [x10Dec_command hs] at hdec
        cases hdec
        exact ⟨⟨fun hhole => hs (X10Payload.command.inj hhole), eq_append_idx2nib_iff.mpr ⟨rfl, rfl⟩, rfl⟩, rfl⟩
    · rw [x10Dec_of_other_flag hunit hcommand] at hdec
      cases hdec
  · obtain ⟨h, payload, ok⟩ := x
    rintro ⟨⟨hhole, hb0, rfl⟩, rfl⟩
    obtain ⟨rfl, hs⟩ := eq_append_idx2nib_iff.mp hb0
    cases payload with
    | unit u =>
      obtain rfl : _ = u := hs
      rfl
    | command c =>
      obtain rfl : _ = c := hs
      exact x10Dec_command (fun he => hhole (congrArg X10Payload.command he)) b2

/-! ## O54, O38, O52, O53 -/

/-- Settles O54: bytes and message stand in one relation both ways, so each round trip is a fact about the status byte. -/
theorem x10CodecRoundTrips : Obligations.X10CodecRoundTrips := by
  refine ⟨fun x => x10Enc_eq_none_iff, fun x ⟨b0, b1, b2⟩ henc => ?decoded, fun b0 b1 b2 x hdec => ?encoded⟩
  case decoded =>
    obtain ⟨hbytes, hstatus⟩ := x10Enc_eq_some_iff.mp henc
    exact x10Dec_eq_some_iff.mpr ⟨hbytes, by rw [hstatus, success_x10StatusByte]⟩
  case encoded =>
    obtain ⟨hbytes, hstatus⟩ := x10Dec_eq_some_iff.mp hdec
    rw [x10Enc_eq_some_iff, hstatus, x10StatusByte_success_iff]
    exact and_iff_right hbytes

/-- Settles O38: at its position a flag row takes its byte as any payload byte is taken. -/
theorem x10FlagIsStored : Obligations.X10FlagIsStored := by
  intro s hst hkind hcnt
  have hstored (flag : Byte) : runX10Flag flag s = .next (afterPayload flag s) := by
    rw [runX10Flag_eq hst hkind hcnt, takePayload_eq (hcnt ▸ by decide)]
  exact ⟨hstored 0x00, hstored 0x80⟩

/-- Settles O52: the stated order and both inverses by their sixteen values. -/
theorem nibblePermutationIsTheTable : Obligations.NibblePermutationIsTheTable :=
  ⟨by decide, idx2nib_nib2idx, nib2idx_idx2nib⟩

/-- Settles O53: the decoder's equation for each flag, and for a command at the hole or beside it. -/
theorem x10DecodeIsAsStated : Obligations.X10DecodeIsAsStated := by
  intro b0 b1 b2
  refine ⟨?unit, ?command, ?hole, fun hunit hcommand => x10Dec_of_other_flag hunit hcommand b0 b2⟩
  case unit =>
    rintro rfl
    exact x10Dec_unit b0 b2
  case command =>
    rintro rfl hs
    exact x10Dec_command hs b2
  case hole =>
    rintro rfl hs
    exact x10Dec_hole hs b2

end Sys2Proof.Machine
end

section
/-! SUPPORT. The stateless codecs of 44_aux_codecs.md: the address (R185, O55), the command pair (R186 to R196, O56 and O57) with
the rows that take it (O36), and the Config byte (R197 and R198, O58). -/

namespace Sys2Proof.Machine

/-! ## The address (R185) -/

/-- Three bytes fit 24 bits, so nothing overflows. -/
theorem addrReduce_toNat (high middle low : Byte) :
    (addrReduce high middle low).toNat = high.toNat * 65536 + middle.toNat * 256 + low.toNat := by
  simp only [addrReduce, BitVec.toNat_ofNat]
  omega

/-- A byte appended below a word is added to 256 times the word. -/
theorem toNat_append_byte {w : Nat} (x : BitVec w) (b : Byte) : (x ++ b).toNat = x.toNat * 256 + b.toNat := by
  rw [BitVec.toNat_append, ← Nat.shiftLeft_add_eq_or_of_lt b.isLt, Nat.shiftLeft_eq]

/-- Settles O55: sum and concatenation are one number. -/
theorem addressReduceIsTheSum : Obligations.AddressReduceIsTheSum := by
  intro h m l
  refine ⟨addrReduce_toNat h m l, BitVec.eq_of_toNat_eq ?_⟩
  rw [addrReduce_toNat, toNat_append_byte, toNat_append_byte]
  omega

/-! ## The command decoder (R186 to R191) -/

theorem cmdRows_bytes : cmdRows.map (·.2.1) = commandBytes := rfl

/-- Each row's byte decodes to the row's command. -/
theorem cmdDec_of_row {row : (CmdEdge → Instr) × Byte × (Byte → Command)} (hrow : row ∈ cmdRows) (c2 : Byte) :
    cmdDec row.2.1 c2 = some (row.2.2 c2) := by
  simp only [cmdRows, List.mem_cons, List.not_mem_nil, or_false] at hrow
  rcases hrow with rfl | rfl | rfl | rfl | rfl | rfl | rfl | rfl | rfl | rfl | rfl | rfl | rfl <;> rfl

/-- R191. -/
theorem cmdDec_of_not_mem {c1 : Byte} (h : c1 ∉ commandBytes) (c2 : Byte) : cmdDec c1 c2 = none := by
  simp only [commandBytes, List.mem_cons, List.not_mem_nil, or_false, not_or] at h
  obtain ⟨h1, h2, h3, h4, h5, h6, h7, h8, h9, h10, h11, h12, h13⟩ := h
  rw [cmdDec, if_neg h1, if_neg h2, if_neg h3, if_neg h4, if_neg h5, if_neg h6, if_neg h7, if_neg h8, if_neg h9,
    if_neg h10, if_neg h11, if_neg h12, if_neg h13]

/-- Settles O56: a byte of a row, or a byte of none. -/
theorem commandDecodeIsAsStated : Obligations.CommandDecodeIsAsStated := by
  intro c1 c2
  refine ⟨?row, fun hother => cmdDec_of_not_mem ?_ c2⟩
  case row =>
    rintro row hrow rfl
    exact cmdDec_of_row hrow c2
  rw [← cmdRows_bytes, List.mem_map]
  rintro ⟨row, hrow, rfl⟩
  exact hother row hrow rfl

/-! ## The command encoder (R192 to R196) -/

/-- R202 (a) and (b): a present group is not 0, so the byte 0 is left for Absent. -/
theorem optionalGroup_groupByte {g : Option Byte} (h : groupWellFormed g = true) : optionalGroup (groupByte g) = g := by
  cases g with
  | none => rfl
  | some v =>
    have hv : v ≠ 0x00 := by simpa [groupWellFormed] using h
    exact if_neg hv

/-- R202 (d). -/
theorem direction_directionByte (d : Direction) : direction (directionByte d) = d := by
  cases d <;> rfl

/-- The command with the argument of On as a group, the one way its byte can be read (R188, R194). -/
def levelAsGroup (c : Command) : Command :=
  match c with
  | .on a => .on (.group (onByte a))
  | c => c

theorem levelAsGroup_eq {c : Command} (h : ∀ v, c ≠ .on (.level v)) : levelAsGroup c = c := by
  cases c with
  | on a =>
    cases a with
    | group g => rfl
    | level v => exact absurd rfl (h v)
  | _ => rfl

/-- What the two bytes of a well-formed command decode to. -/
theorem cmdDec_cmdEnc {c : Command} (h : c.wellFormed = true) :
    cmdDec (cmdEnc c).1 (cmdEnc c).2 = some (levelAsGroup c) := by
  cases c with
  | cancelLinking | beginLinking | beginUnlinking | idRequest | on | stop | statusRequest => rfl
  | start d => exact congrArg (some ∘ Command.start) (direction_directionByte d)
  | fastOn g => exact congrArg (some ∘ Command.fastOn) (optionalGroup_groupByte h)
  | off g => exact congrArg (some ∘ Command.off) (optionalGroup_groupByte h)
  | fastOff g => exact congrArg (some ∘ Command.fastOff) (optionalGroup_groupByte h)
  | bright g => exact congrArg (some ∘ Command.bright) (optionalGroup_groupByte h)
  | dim g => exact congrArg (some ∘ Command.dim) (optionalGroup_groupByte h)

/-- Settles O57: the encoder's bytes decoded again; only On loses which argument it had. -/
theorem commandCodecRoundTrips : Obligations.CommandCodecRoundTrips := by
  refine ⟨fun c hwf hlevel => ?_, fun v => ⟨rfl, rfl, cmdDec_cmdEnc (c := .on (.level v)) rfl⟩, rfl, rfl⟩
  rw [cmdDec_cmdEnc hwf, levelAsGroup_eq hlevel]

/-! ## The rows of a command pair (R186 with R98) -/

/-- Each command row runs as the pair of its byte. -/
theorem exec_cmdRow {row : (CmdEdge → Instr) × Byte × (Byte → Command)} (hrow : row ∈ cmdRows) (e : CmdEdge) (s : State) :
    exec (row.1 e) s = runCommand row.2.1 e s := by
  simp only [cmdRows, List.mem_cons, List.not_mem_nil, or_false] at hrow
  rcases hrow with rfl | rfl | rfl | rfl | rfl | rfl | rfl | rfl | rfl | rfl | rfl | rfl | rfl <;> rfl

/-- A payload edge writes its byte at `CNT` and leaves the rest of the buffer alone. -/
theorem afterPayload_buf_getElem? {s : State} (hcnt : s.cnt.toNat < 20) (b : Byte) (i : Nat) :
    (afterPayload b s).buf.toList[i]? = if i = s.cnt.toNat then some b else s.buf.toList[i]? := by
  simp [afterPayload, List.getElem?_set, hcnt, eq_comm (a := i)]

theorem previous_eq {s : State} {j : Nat} {b : Byte} (hcnt : s.cnt.toNat = j + 1) (hb : s.buf.toList[j]? = some b) :
    s.previous = b := by
  rw [State.previous, hcnt, Nat.add_sub_cancel, List.getD_eq_getElem?_getD, hb, Option.getD_some]

/-- Settles O36: both bytes of the pair are stored, and the stored pair is one that the row's command is read from. -/
theorem commandPairIsTakenAndDecodes : Obligations.CommandPairIsTakenAndDecodes := by
  intro row hrow s k j c2 hst hk hj
  have hbound : j + 1 < 20 := by rcases commandIndex_pos hj with rfl | rfl <;> decide
  refine ⟨fun hcnt => ?select, fun hcnt hc1 => ?data⟩
  case select =>
    have hin : s.cnt.toNat < 20 := by omega
    refine ⟨by rw [exec_cmdRow hrow, runCommand_select hst hk hj hcnt, takePayload_eq hin], ?_⟩
    rw [afterPayload_buf_getElem? hin, if_pos hcnt.symm]
  case data =>
    have hin : s.cnt.toNat < 20 := by omega
    refine ⟨?_, row.2.1, c2, ?_, ?_, cmdDec_of_row hrow c2⟩
    · rw [exec_cmdRow hrow, runCommand_data hst hk hj hcnt (previous_eq hcnt hc1), takePayload_eq hin]
    · rw [afterPayload_buf_getElem? hin, if_neg (by omega), hc1]
    · rw [afterPayload_buf_getElem? hin, if_pos hcnt.symm]

/-! ## The Config byte (R197, R198) -/

/-- Bit `i` is read by its weight. -/
theorem getLsbD_eq_decide_weight (b : Byte) (i : Nat) : b.getLsbD i = decide (b.toNat / 2 ^ i % 2 = 1) :=
  Nat.testBit_eq_decide_div_mod_eq

/-- An inverted bit is read by its weight too. -/
theorem not_getLsbD_eq_decide_weight (b : Byte) (i : Nat) : (!b.getLsbD i) = decide (b.toNat / 2 ^ i % 2 = 0) := by
  rw [getLsbD_eq_decide_weight, ← decide_not, decide_eq_decide]
  exact Nat.mod_two_ne_one

/-- The bits of a packed Config, the lowest first (R198). -/
def cfgBits (c : ConfigFlags) : List Bool :=
  [false, false, false, c.busyReject, !c.timeout, c.manualLed, c.monitor, !c.autoLink]

theorem cfgEnc_getElem (c : ConfigFlags) {i : Nat} (hi : i < 8) : (cfgEnc c)[i] = (cfgBits c)[i]'hi := by
  obtain ⟨autoLink, monitor, manualLed, timeout, busyReject⟩ := c
  revert autoLink monitor manualLed timeout busyReject i hi
  decide

/-- No two flags share a bit, so the packed byte is the sum of their weights. -/
theorem cfgEnc_toNat (c : ConfigFlags) :
    (cfgEnc c).toNat = (if c.autoLink then 0 else 128) + (if c.monitor then 64 else 0) +
      (if c.manualLed then 32 else 0) + (if c.timeout then 0 else 16) + (if c.busyReject then 8 else 0) := by
  obtain ⟨autoLink, monitor, manualLed, timeout, busyReject⟩ := c
  revert autoLink monitor manualLed timeout busyReject
  decide

/-- R202 (e). -/
theorem cfgDec_cfgEnc (c : ConfigFlags) : cfgDec (cfgEnc c) = c := by
  obtain ⟨autoLink, monitor, manualLed, timeout, busyReject⟩ := c
  simp [cfgDec, cfgEnc_getElem, cfgBits]

theorem cfgEnc_cfgDec (b : Byte) : cfgEnc (cfgDec b) = b &&& 0xF8 := by
  refine BitVec.eq_of_getElem_eq fun i hi => ?_
  rw [cfgEnc_getElem (cfgDec b) hi, BitVec.getElem_and]
  interval_cases i <;> simp [cfgBits, cfgDec]

/-- Settles O58: the unpacker reads the bits that the packer writes. -/
theorem configCodecRoundTrips : Obligations.ConfigCodecRoundTrips := by
  refine ⟨fun b => ?_, cfgEnc_toNat, cfgDec_cfgEnc, cfgEnc_cfgDec⟩
  exact ⟨not_getLsbD_eq_decide_weight b 7, getLsbD_eq_decide_weight b 6, getLsbD_eq_decide_weight b 5,
    not_getLsbD_eq_decide_weight b 4, getLsbD_eq_decide_weight b 3⟩

end Sys2Proof.Machine
end

section
/-! SUPPORT. 70_reset_and_hazards.md R230 and R236: what a reset edge is, and which edges read the mode pin (O7, O18). -/

namespace Sys2Proof.Machine

/-! ## The reset edge (R230) -/

theorem transfers_of_reset {s : State} (hrst : s.edge.rst = true) : s.transfers = false := by
  simp [State.transfers, hrst]

theorem handsOver_of_reset {s : State} (hrst : s.edge.rst = true) : s.handsOver = false := by
  simp [State.handsOver, hrst]

/-- Reset transfers no byte, so its edge is silent, and it comes first there. -/
theorem step_of_reset {s : State} (hp : s.params.ok = true) (hrst : s.edge.rst = true) :
    step s = .next (resetEdge s) := by
  rw [step_of_silent hp (transfers_of_reset hrst), silentEdge, if_pos hrst]

/-- Settles O7: the two pin conditions ask for no reset, and the ports of the next state follow from its phase. -/
theorem resetEdgeReturnsToHunt : Obligations.ResetEdgeReturnsToHunt := by
  intro s hp hrst
  have hst : (resetEdge s).st = .hunt := resetEdge_st s
  have hready : (resetEdge s).inReady = true := inReady_iff.mpr (.inl hst)
  have hvalid : (resetEdge s).outValid = false := by simp [State.outValid]
  have heos : (resetEdge s).eos = false := by simp [State.eos]
  exact ⟨transfers_of_reset hrst, handsOver_of_reset hrst, resetEdge s, step_of_reset hp hrst, hst, hready, hvalid, heos,
    resetEdge_sink s, resetEdge_inputs s, resetEdge_params s⟩

/-! ## The mode pin (R236) -/

/-- The state with `e` as the pins of this edge and `r` as the later edges. -/
def State.onEdge (s : State) (e : Edge) (r : List Edge) : State := { s with inputs := e :: r }

/-- The same pins but for the mode. -/
def Edge.withMode (e : Edge) (m : Mode) : Edge := { e with mode := m }

/-- Whether a byte is transferred is decided by the other pins and the phase. -/
theorem transfers_onEdge_mode (s : State) (e : Edge) (m : Mode) (r : List Edge) :
    (s.onEdge (e.withMode m) r).transfers = (s.onEdge e r).transfers := rfl

/-- Neither reset, failure, hand-over nor an idle edge reads the mode. -/
theorem silentEdge_onEdge_mode (s : State) (e : Edge) (m : Mode) (r : List Edge) :
    silentEdge (s.onEdge (e.withMode m) r) = silentEdge (s.onEdge e r) := rfl

/-- The marker is looked for in the byte alone. -/
theorem scanByte_onEdge_mode (s : State) (e : Edge) (m : Mode) (r : List Edge) :
    scanByte (s.onEdge (e.withMode m) r) = scanByte (s.onEdge e r) := rfl

/-- A payload byte is stored, and its frame decided, under the latched mode. -/
theorem takePayload_onEdge_mode (s : State) (e : Edge) (m : Mode) (r : List Edge) :
    takePayload (s.onEdge (e.withMode m) r).edge.inData (s.onEdge (e.withMode m) r) =
      takePayload (s.onEdge e r).edge.inData (s.onEdge e r) := rfl

/-- Each kind of edge but the opcode edge does the same under every mode. -/
theorem step_onEdge_mode {s : State} {e : Edge} {r : List Edge} (m : Mode)
    (hop : ¬ (s.st = .opc ∧ (s.onEdge e r).transfers = true)) :
    step (s.onEdge e r) = step (s.onEdge (e.withMode m) r) := by
  have hparams : (s.onEdge (e.withMode m) r).params.ok = (s.onEdge e r).params.ok := rfl
  have htransfers := transfers_onEdge_mode s e m r
  cases htr : (s.onEdge e r).transfers with
  | false => exact step_congr_of_silent rfl htr (htransfers.trans htr) (silentEdge_onEdge_mode s e m r).symm
  | true =>
    have htr' := htransfers.trans htr
    cases hp : (s.onEdge e r).params.ok with
    | false => rw [step_of_not_ok hp, step_of_not_ok (hparams.trans hp)]
    | true =>
      have hp' := hparams.trans hp
      obtain ⟨-, hready, -, -⟩ := transfers_iff.mp htr
      obtain hst | hst | hst := inReady_iff.mp hready
      · rw [step_of_scan hp hst htr, step_of_scan hp' hst htr', scanByte_onEdge_mode]
      · exact absurd ⟨hst, htr⟩ hop
      · rw [step_of_payload hp hst htr, step_of_payload hp' hst htr', takePayload_onEdge_mode]

/-- Settles O18: the opcode edge is the one kind of edge that reads the mode, and it latches it. -/
theorem modeMattersOnlyOnOpcodeEdge : Obligations.ModeMattersOnlyOnOpcodeEdge := by
  refine ⟨fun s e m r hop => step_onEdge_mode m hop, fun s t hst htr hstep => ?_⟩
  obtain ⟨-, hmode, -⟩ := step_opcode_registers hstep hst htr
  exact hmode

end Sys2Proof.Machine
end

section
/-! SUPPORT. The records of the response frames: 42_response_frames.md R143, R144 and R146 to R161 (O45 to O49). Each of these
rows gives every payload a record, so its last byte, the acknowledge, always presents one. -/

namespace Sys2Proof.Machine

/-! ## A row by the record it builds -/

/-- The response row `row` takes the frames of `kind`, and the record of each of them is `build` of its payload. -/
structure BuildsRecord (row : FrameEdge → Instr) (kind : RspKind) (build : Payload → Record) : Prop where
  runs : ∀ e s, exec (row e) s = runFrame (.rsp kind) e s
  record : ∀ p op len P, recKind p (.rsp kind) op len P = some (build P)

namespace AwaitsLastByte

variable {s : State} {kind : RspKind} {len : Len} {n : Nat} {b : Byte}

/-- The acknowledge is the last byte (R142). -/
theorem ack_last {k : Kind} (h : AwaitsLastByte s k len n) : ack ((afterPayload b s).payload n) = (b == 0x06) := by
  rw [h.payload_last]
  rfl

/-- The last byte of a frame whose row builds a record from every payload. -/
theorem exec_builds {row : FrameEdge → Instr} {build : Payload → Record} {rec : Record}
    (h : AwaitsLastByte s (.rsp kind) len n) (hrow : BuildsRecord row kind build)
    (hrec : build (afterPayload b s).payload = rec) :
    ∃ t, exec (row (.payload b)) s = .next t ∧
      t = { s with st := .out, buf := s.buf.set n b h.fits, cnt := len, inputs := s.inputs.tail } ∧
      t.record = some rec :=
  h.exec_presents (h.exec_of_runFrame (hrow.runs _ _)) (by rw [hrow.record, hrec])

end AwaitsLastByte

/-! ## O45 to O49 -/

/-- Settles O45: each of the seven rows builds its record from the acknowledge alone. -/
theorem acknowledgeOnlyRecords : Obligations.AcknowledgeOnlyRecords := by
  intro row hmem s b hp hst hmode hl hlen hcnt
  have h : AwaitsLastByte s (.rsp row.2.1) 1 0 := awaitsLastByte_of_entry hp hst hmode hl hlen hcnt rfl
  have hrow : BuildsRecord row.1 row.2.1 fun P => row.2.2 (ack (P 0)) := by
    simp only [List.mem_cons, List.not_mem_nil, or_false] at hmem
    rcases hmem with rfl | rfl | rfl | rfl | rfl | rfl | rfl <;> exact ⟨fun _ _ => rfl, fun _ _ _ _ => rfl⟩
  exact h.exec_builds hrow (by rw [h.ack_last])

/-- Settles O46: each of the three rows builds its record from one byte and the acknowledge. -/
theorem oneByteAndAcknowledgeRecords : Obligations.OneByteAndAcknowledgeRecords := by
  intro row hmem s b hp hst hmode hl hlen hcnt
  have h : AwaitsLastByte s (.rsp row.2.1) 2 1 := awaitsLastByte_of_entry hp hst hmode hl hlen hcnt rfl
  have hrow : BuildsRecord row.1 row.2.1 fun P => row.2.2 (P 0) (ack (P 1)) := by
    simp only [List.mem_cons, List.not_mem_nil, or_false] at hmem
    rcases hmem with rfl | rfl | rfl <;> exact ⟨fun _ _ => rfl, fun _ _ _ _ => rfl⟩
  exact h.exec_builds hrow (by simp [h.payload_taken, h.ack_last])

/-- Settles O47: each of the three rows builds its record from two bytes and the acknowledge. -/
theorem twoBytesAndAcknowledgeRecords : Obligations.TwoBytesAndAcknowledgeRecords := by
  intro row hmem s b hp hst hmode hl hlen hcnt
  have h : AwaitsLastByte s (.rsp row.2.1) 3 2 := awaitsLastByte_of_entry hp hst hmode hl hlen hcnt rfl
  have hrow : BuildsRecord row.1 row.2.1 fun P => row.2.2 (P 0) (P 1) (ack (P 2)) := by
    simp only [List.mem_cons, List.not_mem_nil, or_false] at hmem
    rcases hmem with rfl | rfl | rfl <;> exact ⟨fun _ _ => rfl, fun _ _ _ _ => rfl⟩
  exact h.exec_builds hrow (by simp [h.payload_taken, h.ack_last])

/-- Settles O48: each of the three rows builds its record from three bytes and the acknowledge. -/
theorem threeBytesAndAcknowledgeRecords : Obligations.ThreeBytesAndAcknowledgeRecords := by
  intro row hmem s b hp hst hmode hl hlen hcnt
  have h : AwaitsLastByte s (.rsp row.2.1) 4 3 := awaitsLastByte_of_entry hp hst hmode hl hlen hcnt rfl
  have hrow : BuildsRecord row.1 row.2.1 fun P => row.2.2 (P 0) (P 1) (P 2) (ack (P 3)) := by
    simp only [List.mem_cons, List.not_mem_nil, or_false] at hmem
    rcases hmem with rfl | rfl | rfl <;> exact ⟨fun _ _ => rfl, fun _ _ _ _ => rfl⟩
  exact h.exec_builds hrow (by simp [h.payload_taken, h.ack_last])

/-- The row of R143. -/
theorem getInfo_buildsRecord : BuildsRecord .getInfo .getInfo recGetInfo := ⟨fun _ _ => rfl, fun _ _ _ _ => rfl⟩

/-- The row of R157. -/
theorem linkRecordUpdate_buildsRecord : BuildsRecord .linkRecordUpdate .linkRecordUpdate recLinkRecordUpdate :=
  ⟨fun _ _ => rfl, fun _ _ _ _ => rfl⟩

/-- Settles O49: each field is a byte taken before the acknowledge, or three of them as an address. -/
theorem getInfoAndLinkRecordUpdateRecords : Obligations.GetInfoAndLinkRecordUpdateRecords := by
  intro s b hp hst hmode
  refine ⟨fun hl hlen hcnt => ?getInfo, fun hl hlen hcnt => ?linkRecordUpdate⟩
  case getInfo =>
    have h : AwaitsLastByte s (.rsp .getInfo) 7 6 := awaitsLastByte_of_entry hp hst hmode hl hlen hcnt rfl
    refine h.exec_builds getInfo_buildsRecord ?_
    simp [recGetInfo, addressAt, addressValueAt, h.payload_taken, h.ack_last]
  case linkRecordUpdate =>
    have h : AwaitsLastByte s (.rsp .linkRecordUpdate) 10 9 := awaitsLastByte_of_entry hp hst hmode hl hlen hcnt rfl
    refine h.exec_builds linkRecordUpdate_buildsRecord ?_
    simp [recLinkRecordUpdate, addressAt, addressValueAt, h.payload_taken, h.ack_last]

end Sys2Proof.Machine
end

section
/-! SUPPORT. The default parameters: the three tables as 42_response_frames.md R140, 41_message_frames.md R131 and
44_aux_codecs.md R200 list them (O28), and a word of each family of the opcode table, read under them (O26). -/

namespace Sys2Proof.Machine

/-! ## The tables -/

/-- No opcode stands twice in the default response table. -/
theorem defaultRespTable_keys_distinct : distinct (defaultRespTable.map (·.1)) = true := by decide

/-- Each response row stands in the default response table. -/
theorem mem_defaultRespTable_of_mem_rspRows :
    ∀ row ∈ rspRows, (row.2.1, RespEntry.entry row.2.2.1 row.2.2.2) ∈ defaultRespTable := by decide

theorem lookup_default_rspRow {row : (FrameEdge → Instr) × Byte × Len × RspKind} (h : row ∈ rspRows) :
    lookup defaultParams .rsp row.2.1 = .entry row.2.2.1 (.rsp row.2.2.2) := by
  have hrow := lookup_of_mem defaultRespTable_keys_distinct (mem_defaultRespTable_of_mem_rspRows row h)
  simp only [lookup, defaultParams, hrow]

/-- `LOOKUP` knows the opcodes that the table lists, and no other. -/
theorem lookup_rsp_ne_none_iff {p : Params} {op : Byte} :
    lookup p .rsp op ≠ .none ↔ ∃ row ∈ p.respTable, op = row.1 := by
  constructor
  · intro h
    obtain ⟨e, hmem⟩ := respTable_mem_of_lookup h
    exact ⟨_, hmem, rfl⟩
  · rintro ⟨row, hmem, rfl⟩
    obtain ⟨e, he⟩ := Option.isSome_iff_exists.mp (List.lookup_isSome_iff.mpr ⟨row, hmem, beq_self_eq_true row.1⟩)
    cases e <;> simp [lookup, he]

/-- The opcodes of the default response table are one range (R140). -/
theorem defaultRespTable_opcode_iff {op : Byte} :
    (∃ row ∈ defaultRespTable, op = row.1) ↔ 0x60#8 ≤ op ∧ op ≤ 0x73#8 := by
  constructor
  · rintro ⟨row, hmem, rfl⟩
    have hspace : ∀ row ∈ defaultRespTable, 0x60#8 ≤ row.1 ∧ row.1 ≤ 0x73#8 := by decide
    exact hspace row hmem
  · intro h
    simp only [defaultRespTable, List.exists_mem_cons_iff, List.not_mem_nil, false_and, exists_false, or_false]
    bv_omega

/-- The default button table is the button rows' bytes and pairs (R131). -/
theorem defaultButtonTable_eq_btnRows : defaultButtonTable = btnRows.map (·.2) := by decide

theorem buttonOf_default_btnRow {row : Instr × Byte × Button × ButtonAction} (h : row ∈ btnRows) :
    buttonOf defaultParams row.2.1 = some row.2.2 :=
  lookup_of_mem (l := defaultButtonTable) (by decide) (defaultButtonTable_eq_btnRows ▸ List.mem_map_of_mem h)

theorem mem_btnRows_of_buttonOf_default {b : Byte} (h : buttonOf defaultParams b ≠ none) :
    b ∈ btnRows.map (·.2.1) := by
  obtain ⟨bt, hb⟩ := Option.ne_none_iff_exists'.mp h
  have hmem : (b, bt) ∈ btnRows.map (·.2) := defaultButtonTable_eq_btnRows ▸ lookup_mem hb
  obtain ⟨row, hrow, heq⟩ := List.mem_map.mp hmem
  exact List.mem_map.mpr ⟨row, hrow, congrArg Prod.fst heq⟩

/-- The default role table, row by row (R200). -/
theorem linkRoleOf_default (b : Byte) : linkRoleOf defaultParams b =
    if b = 0x00 then some .responder else if b = 0x01 then some .controller
    else if b = 0xFF then some .deleted else none := by
  split_ifs with hresponder hcontroller hdeleted
  · rw [hresponder]; rfl
  · rw [hcontroller]; rfl
  · rw [hdeleted]; rfl
  · exact List.lookup_eq_none_iff.mpr (by
      simpa [defaultParams, defaultLinkRoleTable] using ⟨hresponder, hcontroller, hdeleted⟩)

/-- Settles O28: each table by its rows; no opcode and no button byte stands twice. -/
theorem defaultTablesAreAsListed : Obligations.DefaultTablesAreAsListed := by
  refine ⟨fun row hrow => lookup_default_rspRow hrow, ?unsupported, fun op => ?opcodes,
    fun row hrow => buttonOf_default_btnRow hrow, fun b hb => mem_btnRows_of_buttonOf_default hb, linkRoleOf_default⟩
  case unsupported => exact (lookup_unsupported_iff (by decide) _ _).mpr ⟨rfl, rfl⟩
  case opcodes => exact lookup_rsp_ne_none_iff.trans defaultRespTable_opcode_iff

/-! ## The words -/

/-- A word of one byte is that byte, decoded at the position of its row (30_encoding.md R70, log entry 1). -/
theorem decodeTableWord_of_position {w : Nat} {pos : Position} {i : Instr}
    (hpos : rowPosition (BitVec.ofNat 8 w) = some pos)
    (hi : decode defaultParams pos (BitVec.ofNat 8 w) = some i) : decodeTableWord 8 w = some i := by
  have hbytes : wordBytes 8 w = [BitVec.ofNat 8 w] := by simp [wordBytes]
  simp only [decodeTableWord, hbytes, hpos, hi]

/-- Settles O26: each word at the position its row names, and there by the decoder. -/
theorem tableWordsDecode : Obligations.TableWordsDecode :=
  ⟨decodeTableWord_of_position (pos := .hunt) (by decide) (by decide),
   decodeTableWord_of_position (pos := .opcode .msg) (by decide) (by decide),
   decodeTableWord_of_position (pos := .opcode .rsp) (by decide) (by decide),
   decodeTableWord_of_position (pos := .opcode .rsp) (by decide) (by decide),
   decodeTableWord_of_position (pos := .payload (.msg .receivedStd) 3 0x00) (by decide) (by decide),
   decodeTableWord_of_position (pos := .payload (.msg .buttonEvent) 0 0x00) (by decide) (by decide),
   decodeTableWord_of_position (pos := .payload (.msg .x10Received) 1 0x00) (by decide) (by decide)⟩

end Sys2Proof.Machine
end
